-- ==== Sys2Proof/Word.lean ====
section
/-! DEFINITION. The words of the EB90 frame receiver (spec/00_scope.md R10, spec/30_encoding.md R89). -/

namespace Sys2Proof

/-- One byte of the stream, of a payload or of a store cell. -/
abbrev Byte := BitVec 8

/-- A 16-bit quantity: body length, CRC accumulator, CRC field (R10). -/
abbrev U16 := BitVec 16

/-- A 24-bit count, pointer or operand (R10, R90). -/
abbrev Count := BitVec 24

/-- A 32-bit command or response word (R89, R93). -/
abbrev Word := BitVec 32

end Sys2Proof
end

