-- ==== Sys2Proof/Config.lean ====
section
/-! DEFINITION. What an instance of the block fixes (spec/00_scope.md R5 to R8) and the free value the spec leaves
open (R11). -/

namespace Sys2Proof

/-- `LAYOUT` (R6): how the content lies in the store. -/
inductive Layout where
  | ring
  | contiguous
deriving DecidableEq, Repr

/-- `CRC_UNIT` (R7): whether the host-visible CRC commands exist. -/
inductive CrcUnit where
  | present
  | absent
deriving DecidableEq, Repr

/-- `CRC_VARIANT` (R8): the CRC-16 parameter set of R211. -/
inductive CrcVariant where
  | arc
  | ibm3740
deriving DecidableEq, Repr

/-- The parameters of one instance. `8 <= N <= 2^24 - 1` comes with the value, so that a configuration outside the
range has no instance (R5; spec/93_implementation_defined.md U4). -/
structure Config where
  capacity : Nat
  layout : Layout
  crcUnit : CrcUnit
  crcVariant : CrcVariant
  capacity_ge : 8 ≤ capacity
  capacity_le : capacity ≤ 16777215
deriving DecidableEq, Repr

/-- The instance `State.reset` uses. LAYOUT, CRC_UNIT and CRC_VARIANT are the spec's defaults (R6, R7, R8).
`N = 64` is a DESIGN CHOICE (log 1): the spec gives N no value; 64 is the value its test vectors assume. -/
def Config.standard : Config where
  capacity := 64
  layout := .ring
  crcUnit := .present
  crcVariant := .arc
  capacity_ge := by decide
  capacity_le := by decide

/-- The `draw()` of R11 for RDB of a cell outside the content (spec/20_memory.md R63): a free value with no body,
one for each number of a draw (log 3). -/
opaque Config.freeByte : Nat → Byte

end Sys2Proof
end

