-- ==== Sys2Proof/Syntax.lean ====
section
/-! DEFINITION. The 14 commands of spec/opcode_table.json (spec/30_encoding.md R92) and the transaction that carries
one (R88). -/

namespace Sys2Proof

/-- One constructor for each row of the opcode table. FILL and CRCU hold their payload: the count `k = ARG` is its
length (R88, R90). -/
inductive Instr where
  | cap
  | len
  | full
  | fill (payload : List Byte)
  | consume (n : Count)
  | data
  | rdb (i : Count)
  | read
  | body
  | conv
  | crci
  | crcu (payload : List Byte)
  | crcr
  | stat
deriving DecidableEq, Repr

/-- A command transaction `(CMD, PAYLOAD)` (R88). -/
structure Transaction where
  cmd : Word
  payload : List Byte
deriving DecidableEq, Repr

end Sys2Proof
end

