-- ==== Sys2Proof/WellFormed.lean ====
section
/-! DEFINITION. Which commands can be written as one transaction (spec/30_encoding.md R88, R90). -/

namespace Sys2Proof

/-- The payload's length fits the 24-bit ARG field; a longer FILL "cannot be written as one command"
(spec/95_test_vectors.md T10). Every other command is well formed. -/
def Instr.wellFormed : Instr → Bool
  | .fill payload => decide (payload.length < 2 ^ 24)
  | .crcu payload => decide (payload.length < 2 ^ 24)
  | .cap | .len | .full | .consume _ | .data | .rdb _ | .read | .body | .conv | .crci | .crcr | .stat => true

end Sys2Proof
end

