-- ==== Sys2Proof/Decode.lean ====
section
/-! DEFINITION. The command port encoding (spec/30_encoding.md R88 to R92, R98 to R100): decoding a transaction,
and encoding a command. -/

namespace Sys2Proof

/-- `OP`, bits 31:28 (R89). -/
def opField (cmd : Word) : BitVec 4 := cmd.extractLsb' 28 4

/-- `RSV`, bits 27:24 (R89). -/
def rsvField (cmd : Word) : BitVec 4 := cmd.extractLsb' 24 4

/-- `ARG`, bits 23:0 (R89). -/
def argField (cmd : Word) : Count := cmd.extractLsb' 0 24

/-- Bits 31:24, what `ILLEGAL_COMMAND` records (R253). -/
def topByte (cmd : Word) : Byte := cmd.extractLsb' 24 8

/-- The number of payload bytes the port carries with a word: `ARG` for OP 0x4 and 0xC, else none; it depends on
the word alone (R88, R100). -/
def payloadLength (cmd : Word) : Nat :=
  if opField cmd = 0x4#4 ∨ opField cmd = 0xC#4 then (argField cmd).toNat else 0

/-- The transaction can be presented on the port (R88). -/
def Transaction.presentable (t : Transaction) : Bool := t.payload.length == payloadLength t.cmd

/-- What a transaction is, whatever the configuration. -/
inductive Decoded where
  /-- an assigned command (R92) -/
  | instr (i : Instr)
  /-- an illegal word by R98 cases 1, 3 and 4; `top` is `CMD[31:24]` -/
  | illegal (top : Byte)
  /-- the payload length breaks R88: the transaction cannot be presented -/
  | notPresentable
deriving DecidableEq, Repr

/-- The opcode map (R92): the command an opcode names, given its operand and payload, or none for an unassigned
opcode and for a nonzero `ARG` on a command that takes no operand (R98 cases 1 and 4). Opcodes 0xB to 0xD are decoded
here; R98 case 2 (`CRC_UNIT = ABSENT`) is checked by their meanings. -/
def decodeOpcode (op : BitVec 4) (arg : Count) (payload : List Byte) : Option Instr :=
  let plain (i : Instr) : Option Instr := if arg = 0#24 then some i else none
  match op.toNat with
  | 0x1 => plain .cap
  | 0x2 => plain .len
  | 0x3 => plain .full
  | 0x4 => some (.fill payload)
  | 0x5 => some (.consume arg)
  | 0x6 => plain .data
  | 0x7 => some (.rdb arg)
  | 0x8 => plain .read
  | 0x9 => plain .body
  | 0xA => plain .conv
  | 0xB => plain .crci
  | 0xC => some (.crcu payload)
  | 0xD => plain .crcr
  | 0xE => plain .stat
  | _ => none

/-- Decode a transaction (R88, R92, R98, R100). -/
def decode (t : Transaction) : Decoded :=
  if t.presentable then
    if rsvField t.cmd = 0#4 then
      match decodeOpcode (opField t.cmd) (argField t.cmd) t.payload with
      | some i => .instr i
      | none => .illegal (topByte t.cmd)
    else .illegal (topByte t.cmd)
  else .notPresentable

/-- The opcode of a command (R92). -/
def Instr.opcode : Instr → BitVec 4
  | .cap => 0x1#4
  | .len => 0x2#4
  | .full => 0x3#4
  | .fill _ => 0x4#4
  | .consume _ => 0x5#4
  | .data => 0x6#4
  | .rdb _ => 0x7#4
  | .read => 0x8#4
  | .body => 0x9#4
  | .conv => 0xA#4
  | .crci => 0xB#4
  | .crcu _ => 0xC#4
  | .crcr => 0xD#4
  | .stat => 0xE#4

/-- The `ARG` field of a command (R90). -/
def Instr.arg : Instr → Count
  | .fill payload => BitVec.ofNat 24 payload.length
  | .crcu payload => BitVec.ofNat 24 payload.length
  | .consume n => n
  | .rdb i => i
  | .cap | .len | .full | .data | .read | .body | .conv | .crci | .crcr | .stat => 0#24

/-- The payload bytes of a command (R88). -/
def Instr.payload : Instr → List Byte
  | .fill payload => payload
  | .crcu payload => payload
  | .cap | .len | .full | .consume _ | .data | .rdb _ | .read | .body | .conv | .crci | .crcr | .stat => []

/-- `CMD[31:24]` of a command's word: its opcode over `RSV = 0`. -/
def Instr.topByte (i : Instr) : Byte := i.opcode ++ 0#4

/-- The command word with `OP` and `ARG`, and `RSV = 0` (R89). -/
def commandWord (op : BitVec 4) (arg : Count) : Word := (op.zeroExtend 32 <<< 28) ||| arg.zeroExtend 32

/-- Encode a command (R88, R89, R92). -/
def encode (i : Instr) : Transaction where
  cmd := commandWord i.opcode i.arg
  payload := i.payload

/-- The transaction whose bits are `w`, as spec/opcode_table.json numbers them: the command word is bits 31:0, and
payload byte `j` is bits `32 + 8j` up; every bit from `nbits` up is 0. -/
def tableTransaction (nbits w : Nat) : Transaction :=
  let bits := w % 2 ^ nbits
  let cmd := BitVec.ofNat 32 bits
  ⟨cmd, (List.range (payloadLength cmd)).map fun j => BitVec.ofNat 8 (bits >>> (32 + 8 * j))⟩

/-- The command the decoder reads from such a transaction; none for an illegal word. -/
def decodeTableWord (nbits w : Nat) : Option Instr :=
  match decode (tableTransaction nbits w) with
  | .instr i => some i
  | .illegal _ => none
  | .notPresentable => none

end Sys2Proof
end

