-- ==== Sys2Proof/Machine/Checksum.lean ====
section
/-! DEFINITION. The CRC-16 function (spec/43_crc.md R210 to R216), its byte-parallel forms (R213, R215) and its byte
tables (R223, R224). -/

namespace Sys2Proof.Machine

/-- `INIT(CRC_VARIANT)` (R211). -/
def crcInit : CrcVariant → U16
  | .arc => 0x0000#16
  | .ibm3740 => 0xFFFF#16

/-- One of the eight shifts of the reflected form (R212). -/
def arcShift (c : U16) : U16 := if c.getLsbD 0 then (c >>> 1) ^^^ 0xA001#16 else c >>> 1

/-- `arc_update`, bit-serial (R212). -/
def arcUpdate (c : U16) (b : Byte) : U16 := arcShift^[8] (c ^^^ b.zeroExtend 16)

/-- One of the eight shifts of the non-reflected form (R214). -/
def ibmShift (c : U16) : U16 := if c.getLsbD 15 then (c <<< 1) ^^^ 0x1021#16 else c <<< 1

/-- `ibm_update`, bit-serial (R214). -/
def ibmUpdate (c : U16) (b : Byte) : U16 := ibmShift^[8] (c ^^^ (b.zeroExtend 16 <<< 8))

/-- `update` for the configured variant (R216). -/
def crcUpdate : CrcVariant → U16 → Byte → U16
  | .arc => arcUpdate
  | .ibm3740 => ibmUpdate

/-- The fold of the update over bytes in order (R216, R220). -/
def crcFold (v : CrcVariant) (c : U16) (bytes : List Byte) : U16 := bytes.foldl (crcUpdate v) c

/-- `crc16` (R216): the fold from `INIT`, with final XOR 0. -/
def crc16 (v : CrcVariant) (bytes : List Byte) : U16 := crcFold v (crcInit v) bytes

/-- The columns `KA[0..7]` of the XOR network (R213). -/
def arcColumns : List U16 :=
  [0xC0C1#16, 0xC181#16, 0xC301#16, 0xC601#16, 0xCC01#16, 0xD801#16, 0xF001#16, 0xA001#16]

/-- The columns `KI[0..7]` of the XOR network (R215). -/
def ibmColumns : List U16 :=
  [0x1021#16, 0x2042#16, 0x4084#16, 0x8108#16, 0x1231#16, 0x2462#16, 0x48C4#16, 0x9188#16]

/-- The XOR of the columns whose bit of `x` is 1, from column `j` on (R213, R215). -/
def xorColumns (x : Byte) : Nat → List U16 → U16
  | _, [] => 0#16
  | j, k :: ks => (if x.getLsbD j then k else 0#16) ^^^ xorColumns x (j + 1) ks

/-- `arc_update`, byte-parallel form 1 (R213). -/
def arcNetwork (c : U16) (b : Byte) : U16 :=
  let x : Byte := (c ^^^ b.zeroExtend 16).setWidth 8
  (c >>> 8) ^^^ xorColumns x 0 arcColumns

/-- The XOR of the eight bits of a byte (R213). -/
def parity (x : Byte) : Bool :=
  x.getLsbD 0 ^^ x.getLsbD 1 ^^ x.getLsbD 2 ^^ x.getLsbD 3 ^^ x.getLsbD 4 ^^ x.getLsbD 5 ^^ x.getLsbD 6 ^^ x.getLsbD 7

/-- `arc_update`, byte-parallel form 2 (R213). -/
def arcParityForm (c : U16) (b : Byte) : U16 :=
  let x : Byte := (c ^^^ b.zeroExtend 16).setWidth 8
  let y : U16 := x.zeroExtend 16 ^^^ (x.zeroExtend 16 <<< 1)
  (c >>> 8) ^^^ (y <<< 6) ^^^ (if parity x then 0xC001#16 else 0#16)

/-- `ibm_update`, byte-parallel form 1 (R215). -/
def ibmNetwork (c : U16) (b : Byte) : U16 :=
  let x : Byte := ((c >>> 8) ^^^ b.zeroExtend 16).setWidth 8
  (c <<< 8) ^^^ xorColumns x 0 ibmColumns

/-- `ibm_update`, byte-parallel form 2 (R215). -/
def ibmShiftForm (c : U16) (b : Byte) : U16 :=
  let x : Byte := ((c >>> 8) ^^^ b.zeroExtend 16).setWidth 8
  let x : Byte := x ^^^ (x >>> 4)
  let x : U16 := x.zeroExtend 16
  (c <<< 8) ^^^ (x <<< 12) ^^^ (x <<< 5) ^^^ x

/-- Rows 0 to 3 of the byte table `TA` (R223). -/
def arcTablePart0 : List U16 :=
  [0x0000, 0xC0C1, 0xC181, 0x0140, 0xC301, 0x03C0, 0x0280, 0xC241, 0xC601, 0x06C0, 0x0780, 0xC741, 0x0500, 0xC5C1, 0xC481, 0x0440,
   0xCC01, 0x0CC0, 0x0D80, 0xCD41, 0x0F00, 0xCFC1, 0xCE81, 0x0E40, 0x0A00, 0xCAC1, 0xCB81, 0x0B40, 0xC901, 0x09C0, 0x0880, 0xC841,
   0xD801, 0x18C0, 0x1980, 0xD941, 0x1B00, 0xDBC1, 0xDA81, 0x1A40, 0x1E00, 0xDEC1, 0xDF81, 0x1F40, 0xDD01, 0x1DC0, 0x1C80, 0xDC41,
   0x1400, 0xD4C1, 0xD581, 0x1540, 0xD701, 0x17C0, 0x1680, 0xD641, 0xD201, 0x12C0, 0x1380, 0xD341, 0x1100, 0xD1C1, 0xD081, 0x1040]

/-- Rows 4 to 7 of the byte table `TA` (R223). -/
def arcTablePart1 : List U16 :=
  [0xF001, 0x30C0, 0x3180, 0xF141, 0x3300, 0xF3C1, 0xF281, 0x3240, 0x3600, 0xF6C1, 0xF781, 0x3740, 0xF501, 0x35C0, 0x3480, 0xF441,
   0x3C00, 0xFCC1, 0xFD81, 0x3D40, 0xFF01, 0x3FC0, 0x3E80, 0xFE41, 0xFA01, 0x3AC0, 0x3B80, 0xFB41, 0x3900, 0xF9C1, 0xF881, 0x3840,
   0x2800, 0xE8C1, 0xE981, 0x2940, 0xEB01, 0x2BC0, 0x2A80, 0xEA41, 0xEE01, 0x2EC0, 0x2F80, 0xEF41, 0x2D00, 0xEDC1, 0xEC81, 0x2C40,
   0xE401, 0x24C0, 0x2580, 0xE541, 0x2700, 0xE7C1, 0xE681, 0x2640, 0x2200, 0xE2C1, 0xE381, 0x2340, 0xE101, 0x21C0, 0x2080, 0xE041]

/-- Rows 8 to 11 of the byte table `TA` (R223). -/
def arcTablePart2 : List U16 :=
  [0xA001, 0x60C0, 0x6180, 0xA141, 0x6300, 0xA3C1, 0xA281, 0x6240, 0x6600, 0xA6C1, 0xA781, 0x6740, 0xA501, 0x65C0, 0x6480, 0xA441,
   0x6C00, 0xACC1, 0xAD81, 0x6D40, 0xAF01, 0x6FC0, 0x6E80, 0xAE41, 0xAA01, 0x6AC0, 0x6B80, 0xAB41, 0x6900, 0xA9C1, 0xA881, 0x6840,
   0x7800, 0xB8C1, 0xB981, 0x7940, 0xBB01, 0x7BC0, 0x7A80, 0xBA41, 0xBE01, 0x7EC0, 0x7F80, 0xBF41, 0x7D00, 0xBDC1, 0xBC81, 0x7C40,
   0xB401, 0x74C0, 0x7580, 0xB541, 0x7700, 0xB7C1, 0xB681, 0x7640, 0x7200, 0xB2C1, 0xB381, 0x7340, 0xB101, 0x71C0, 0x7080, 0xB041]

/-- Rows 12 to 15 of the byte table `TA` (R223). -/
def arcTablePart3 : List U16 :=
  [0x5000, 0x90C1, 0x9181, 0x5140, 0x9301, 0x53C0, 0x5280, 0x9241, 0x9601, 0x56C0, 0x5780, 0x9741, 0x5500, 0x95C1, 0x9481, 0x5440,
   0x9C01, 0x5CC0, 0x5D80, 0x9D41, 0x5F00, 0x9FC1, 0x9E81, 0x5E40, 0x5A00, 0x9AC1, 0x9B81, 0x5B40, 0x9901, 0x59C0, 0x5880, 0x9841,
   0x8801, 0x48C0, 0x4980, 0x8941, 0x4B00, 0x8BC1, 0x8A81, 0x4A40, 0x4E00, 0x8EC1, 0x8F81, 0x4F40, 0x8D01, 0x4DC0, 0x4C80, 0x8C41,
   0x4400, 0x84C1, 0x8581, 0x4540, 0x8701, 0x47C0, 0x4680, 0x8641, 0x8201, 0x42C0, 0x4380, 0x8341, 0x4100, 0x81C1, 0x8081, 0x4040]

/-- The byte table `TA` (R223). -/
def arcTable : List U16 := arcTablePart0 ++ arcTablePart1 ++ arcTablePart2 ++ arcTablePart3

/-- Rows 0 to 3 of the byte table `TI` (R224). -/
def ibmTablePart0 : List U16 :=
  [0x0000, 0x1021, 0x2042, 0x3063, 0x4084, 0x50A5, 0x60C6, 0x70E7, 0x8108, 0x9129, 0xA14A, 0xB16B, 0xC18C, 0xD1AD, 0xE1CE, 0xF1EF,
   0x1231, 0x0210, 0x3273, 0x2252, 0x52B5, 0x4294, 0x72F7, 0x62D6, 0x9339, 0x8318, 0xB37B, 0xA35A, 0xD3BD, 0xC39C, 0xF3FF, 0xE3DE,
   0x2462, 0x3443, 0x0420, 0x1401, 0x64E6, 0x74C7, 0x44A4, 0x5485, 0xA56A, 0xB54B, 0x8528, 0x9509, 0xE5EE, 0xF5CF, 0xC5AC, 0xD58D,
   0x3653, 0x2672, 0x1611, 0x0630, 0x76D7, 0x66F6, 0x5695, 0x46B4, 0xB75B, 0xA77A, 0x9719, 0x8738, 0xF7DF, 0xE7FE, 0xD79D, 0xC7BC]

/-- Rows 4 to 7 of the byte table `TI` (R224). -/
def ibmTablePart1 : List U16 :=
  [0x48C4, 0x58E5, 0x6886, 0x78A7, 0x0840, 0x1861, 0x2802, 0x3823, 0xC9CC, 0xD9ED, 0xE98E, 0xF9AF, 0x8948, 0x9969, 0xA90A, 0xB92B,
   0x5AF5, 0x4AD4, 0x7AB7, 0x6A96, 0x1A71, 0x0A50, 0x3A33, 0x2A12, 0xDBFD, 0xCBDC, 0xFBBF, 0xEB9E, 0x9B79, 0x8B58, 0xBB3B, 0xAB1A,
   0x6CA6, 0x7C87, 0x4CE4, 0x5CC5, 0x2C22, 0x3C03, 0x0C60, 0x1C41, 0xEDAE, 0xFD8F, 0xCDEC, 0xDDCD, 0xAD2A, 0xBD0B, 0x8D68, 0x9D49,
   0x7E97, 0x6EB6, 0x5ED5, 0x4EF4, 0x3E13, 0x2E32, 0x1E51, 0x0E70, 0xFF9F, 0xEFBE, 0xDFDD, 0xCFFC, 0xBF1B, 0xAF3A, 0x9F59, 0x8F78]

/-- Rows 8 to 11 of the byte table `TI` (R224). -/
def ibmTablePart2 : List U16 :=
  [0x9188, 0x81A9, 0xB1CA, 0xA1EB, 0xD10C, 0xC12D, 0xF14E, 0xE16F, 0x1080, 0x00A1, 0x30C2, 0x20E3, 0x5004, 0x4025, 0x7046, 0x6067,
   0x83B9, 0x9398, 0xA3FB, 0xB3DA, 0xC33D, 0xD31C, 0xE37F, 0xF35E, 0x02B1, 0x1290, 0x22F3, 0x32D2, 0x4235, 0x5214, 0x6277, 0x7256,
   0xB5EA, 0xA5CB, 0x95A8, 0x8589, 0xF56E, 0xE54F, 0xD52C, 0xC50D, 0x34E2, 0x24C3, 0x14A0, 0x0481, 0x7466, 0x6447, 0x5424, 0x4405,
   0xA7DB, 0xB7FA, 0x8799, 0x97B8, 0xE75F, 0xF77E, 0xC71D, 0xD73C, 0x26D3, 0x36F2, 0x0691, 0x16B0, 0x6657, 0x7676, 0x4615, 0x5634]

/-- Rows 12 to 15 of the byte table `TI` (R224). -/
def ibmTablePart3 : List U16 :=
  [0xD94C, 0xC96D, 0xF90E, 0xE92F, 0x99C8, 0x89E9, 0xB98A, 0xA9AB, 0x5844, 0x4865, 0x7806, 0x6827, 0x18C0, 0x08E1, 0x3882, 0x28A3,
   0xCB7D, 0xDB5C, 0xEB3F, 0xFB1E, 0x8BF9, 0x9BD8, 0xABBB, 0xBB9A, 0x4A75, 0x5A54, 0x6A37, 0x7A16, 0x0AF1, 0x1AD0, 0x2AB3, 0x3A92,
   0xFD2E, 0xED0F, 0xDD6C, 0xCD4D, 0xBDAA, 0xAD8B, 0x9DE8, 0x8DC9, 0x7C26, 0x6C07, 0x5C64, 0x4C45, 0x3CA2, 0x2C83, 0x1CE0, 0x0CC1,
   0xEF1F, 0xFF3E, 0xCF5D, 0xDF7C, 0xAF9B, 0xBFBA, 0x8FD9, 0x9FF8, 0x6E17, 0x7E36, 0x4E55, 0x5E74, 0x2E93, 0x3EB2, 0x0ED1, 0x1EF0]

/-- The byte table `TI` (R224). -/
def ibmTable : List U16 := ibmTablePart0 ++ ibmTablePart1 ++ ibmTablePart2 ++ ibmTablePart3

/-- `arc_update` through the byte table (R223). -/
def arcTableUpdate (c : U16) (b : Byte) : U16 :=
  (c >>> 8) ^^^ arcTable.getD ((c ^^^ b.zeroExtend 16).setWidth 8 : Byte).toNat 0#16

/-- `ibm_update` through the byte table (R224). -/
def ibmTableUpdate (c : U16) (b : Byte) : U16 :=
  (c <<< 8) ^^^ ibmTable.getD (((c >>> 8) ^^^ b.zeroExtend 16).setWidth 8 : Byte).toNat 0#16

end Sys2Proof.Machine
end

