-- ==== Sys2Proof/Machine/State.lean ====
section
/-! DEFINITION. The state of the block as plain data (spec/10_state.md R20 to R35), the responses (spec/30_encoding.md
R93 to R97) and the host's inputs (R88, spec/70_reset_and_hazards.md R281). -/

namespace Sys2Proof.Machine

/-- `FAULT_CAUSE` (spec/60_exceptions.md R252): codes 0x5 to 0xF have no constructor (93 U20). -/
inductive FaultCause where
  | none
  | illegalCommand
  | evictOverrun
  | staleToken
  | indexRange
deriving DecidableEq, Repr

/-- The junk kinds (spec/30_encoding.md R95). -/
inductive JunkKind where
  | invalidStx
  | invalidLength
  | invalidCrc
  | invalidEtx
deriving DecidableEq, Repr

/-- `RCODE` (spec/30_encoding.md R94): values 0x4 to 0xE have no constructor. -/
inductive RCode where
  | ok
  | incomplete
  | junk
  | frame
  | faulted
deriving DecidableEq, Repr

/-- `KIND` (spec/30_encoding.md R95): none, a junk kind, or a fault cause. -/
inductive Kind where
  | none
  | junk (k : JunkKind)
  | cause (c : FaultCause)
deriving DecidableEq, Repr

/-- One response (spec/30_encoding.md R93). Bits 31:24 of an extra word are 0, so an extra word is its 24-bit value. -/
structure Response where
  rcode : RCode
  kind : Kind
  value : Count
  extra : List Count
deriving DecidableEq, Repr

/-- What the host can do to the block: present a transaction (spec/30_encoding.md R88), or assert reset between two
transactions (spec/70_reset_and_hazards.md R281). -/
inductive HostInput where
  | transaction (t : Transaction)
  | reset
deriving DecidableEq, Repr

/-- The store as the cells that hold a specified byte: addresses strictly rising; an address not listed holds no
specified value (spec/20_memory.md R63, log 4). -/
abbrev Memory := List Host.Cell

/-- The state of the block (R20) and, marked so, the model's own fields. -/
structure State where
  /-- MODEL'S OWN: the instance's parameters, which no step changes (R20; log 1). -/
  cfg : Config
  /-- `STORE` (R22). -/
  store : Memory
  /-- `HEAD` (R23). -/
  head : Count
  /-- `LEN` (R24). -/
  len : Count
  /-- `TOK_VALID` (R25). -/
  tokValid : Bool
  /-- `TOK_BODY_LEN` (R25). -/
  tokBodyLen : U16
  /-- `FAULT_CAUSE` (R26). -/
  faultCause : FaultCause
  /-- `FAULT_INFO` (R26). -/
  faultInfo : Count
  /-- `CRC_ACC` (R27). -/
  crcAcc : U16
  /-- MODEL'S OWN: how many `draw()` values have been taken (spec/00_scope.md R11; log 3). -/
  draws : Nat
  /-- MODEL'S OWN: the host's inputs not yet taken, oldest first (log 2). -/
  inbox : List HostInput
  /-- MODEL'S OWN: the responses given since the last reset, oldest first: the current run's result
  (spec/70_reset_and_hazards.md R292; log 2). -/
  outbox : List Response
  /-- MODEL'S OWN: the results of the runs that earlier resets closed, oldest first (spec/70_reset_and_hazards.md R292;
  log 2). -/
  pastRuns : List (List Response)
deriving DecidableEq, Repr

/-- Why a step can stop with a fault. The block's own faults (spec/60_exceptions.md) are no such stop: they are next
states. -/
inductive Fault where
  /-- Raised by READ and RDB where a cell of the content has no byte listed. Safe: the spec gives an unwritten cell no
  value, and no state that satisfies `State.Inv` has such a cell (log 4). -/
  | unspecifiedCell
deriving DecidableEq, Repr

/-- Why a step can be refused. -/
inductive Refusal where
  /-- An instruction without a meaning. No arm of `exec` answers it. Safe. -/
  | notModelled (mnemonic : String)
  /-- Raised by `step` for a transaction whose payload length breaks spec/30_encoding.md R88: it "cannot be presented"
  and "has no step" (93 U15). Safe. -/
  | payloadMismatch
deriving DecidableEq, Repr

/-- What a command answers. -/
abbrev Result := Host.Outcome State Fault Refusal

/-- The reset state of an instance (R35; spec/70_reset_and_hazards.md R280), nothing offered by the host yet. With
`CRC_UNIT = ABSENT` there is no accumulator and the field is held at `INIT` (log 6). -/
def State.resetOf (cfg : Config) : State where
  cfg := cfg
  store := []
  head := 0#24
  len := 0#24
  tokValid := false
  tokBodyLen := 0#16
  faultCause := .none
  faultInfo := 0#24
  crcAcc := crcInit cfg.crcVariant
  draws := 0
  inbox := []
  outbox := []
  pastRuns := []

/-- The machine right after reset, for the standard instance (log 1). -/
def State.reset : State := State.resetOf Config.standard

end Sys2Proof.Machine
end

