-- ==== Sys2Proof/Machine/Ops.lean ====
section
/-! DEFINITION. The named operations over the store, the registers, the responses and the fault state, and the
preamble of every command (spec/20_memory.md R51, spec/30_encoding.md R93 to R97, spec/60_exceptions.md R251, R258). -/

namespace Sys2Proof.Machine

/-! ### The store -/

/-- What an unlisted address reads as: no value. The spec gives an unwritten cell none (spec/10_state.md R35,
spec/20_memory.md R63; log 4). -/
abbrev Memory.unlisted : Option Byte := none

/-- `StoreRd` (R51): the byte of a cell, none where the cell holds no specified value (log 4). -/
def Memory.read : Memory → Nat → Option Byte
  | [], _ => Memory.unlisted
  | (k, v) :: rest, a => if k = a then some v else Memory.read rest a

/-- `StoreWr` (R51): one cell gets a byte; the list stays sorted. -/
def Memory.write : Memory → Nat → Byte → Memory
  | [], a, b => [(a, b)]
  | (k, v) :: rest, a, b =>
    if a < k then (a, b) :: (k, v) :: rest
    else if a = k then (a, b) :: rest
    else (k, v) :: Memory.write rest a b

/-- The canonical form: addresses strictly rising. No entry can equal what an unlisted address reads as, since that is
no value (log 4). -/
def Memory.wf : Memory → Bool
  | [] => true
  | [_] => true
  | c :: d :: rest => decide (c.1 < d.1) && Memory.wf (d :: rest)

/-- The bytes of the cells with the addresses given, in order; none if one of them holds no specified value. -/
def Memory.readAll (m : Memory) : List Nat → Option (List Byte)
  | [] => some []
  | a :: rest =>
    match m.read a, Memory.readAll m rest with
    | some b, some bytes => some (b :: bytes)
    | _, _ => none

/-- The store loop of FILL (spec/40_buffer.md R123): bytes into consecutive cells from `start` on, modulo `n`. -/
def Memory.writeRun (n : Nat) : Memory → Nat → List Byte → Memory
  | m, _, [] => m
  | m, start, b :: rest => Memory.writeRun n (m.write (start % n) b) (start + 1) rest

/-- The cells that satisfy `p` no longer hold a specified value (R63, log 5). -/
def Memory.forget (m : Memory) (p : Nat → Bool) : Memory := m.filter fun c => !p c.1

/-- The shift of a contiguous CONSUME (spec/40_buffer.md R124): cell `i` takes the byte of cell `i + n` for
`i + n < len`; the cells from `len - n` up to `len` no longer hold a specified value (R63, log 5). -/
def Memory.shiftDown (m : Memory) (n len : Nat) : Memory :=
  m.filterMap fun c =>
    if len ≤ c.1 then some c
    else if c.1 < n then none
    else some (c.1 - n, c.2)

/-! ### Responses -/

/-- The code of a fault cause (R252). -/
def FaultCause.code : FaultCause → BitVec 4
  | .none => 0x0#4
  | .illegalCommand => 0x1#4
  | .evictOverrun => 0x2#4
  | .staleToken => 0x3#4
  | .indexRange => 0x4#4

/-- The code of a junk kind (R95). -/
def JunkKind.code : JunkKind → BitVec 4
  | .invalidStx => 0x1#4
  | .invalidLength => 0x2#4
  | .invalidCrc => 0x3#4
  | .invalidEtx => 0x4#4

/-- The code of an `RCODE` (R94). -/
def RCode.code : RCode → BitVec 4
  | .ok => 0x0#4
  | .incomplete => 0x1#4
  | .junk => 0x2#4
  | .frame => 0x3#4
  | .faulted => 0xF#4

/-- The code of a `KIND` (R95). -/
def Kind.code : Kind → BitVec 4
  | .none => 0x0#4
  | .junk k => k.code
  | .cause c => c.code

/-- The header word of a response (R93). -/
def Response.header (r : Response) : Word := r.rcode.code ++ r.kind.code ++ r.value

/-- The words of a response: the header, then the extra words (R93). -/
def Response.words (r : Response) : List Word := r.header :: r.extra.map (BitVec.zeroExtend 32)

/-- The OK response with a value (R97). -/
def okResponse (value : Count) : Response := ⟨.ok, .none, value, []⟩

/-- The FAULTED response (R97, R251, R257). -/
def faultedResponse (c : FaultCause) (info : Count) : Response := ⟨.faulted, .cause c, info, []⟩

/-- `respond` (R93): the command's one response. -/
def State.respond (s : State) (r : Response) : State := { s with outbox := s.outbox ++ [r] }

/-! ### Registers -/

/-- `N` (spec/00_scope.md R5). -/
def State.capacity (s : State) : Nat := s.cfg.capacity

/-- READ with a FRAME outcome arms the token (spec/10_state.md R25). -/
def State.armToken (s : State) (bodyLen : U16) : State := { s with tokValid := true, tokBodyLen := bodyLen }

/-- The token is invalidated or spent (spec/10_state.md R25, spec/42_token.md R194). -/
def State.clearToken (s : State) : State := { s with tokValid := false, tokBodyLen := 0#16 }

/-- `CRC_ACC <- c` (spec/10_state.md R27). -/
def State.setCrcAcc (s : State) (c : U16) : State := { s with crcAcc := c }

/-- One `draw()` has been taken (spec/00_scope.md R11, log 3). -/
def State.takeDraw (s : State) : State := { s with draws := s.draws + 1 }

/-- The byte the next `draw()` gives: free (spec/00_scope.md R11, log 3). -/
def State.nextDraw (s : State) : Byte := Config.freeByte s.draws

/-! ### The fault state and the preamble -/

/-- `raise Fault(cause, info)` (spec/60_exceptions.md R251): records the pair, answers FAULTED, and nothing else. -/
def State.raiseFault (s : State) (c : FaultCause) (info : Count) : State :=
  State.respond { s with faultCause := c, faultInfo := info } (faultedResponse c info)

/-- What a faulted block does with every command (spec/60_exceptions.md R257). -/
def State.answerFaulted (s : State) : State := s.respond (faultedResponse s.faultCause s.faultInfo)

/-- The preamble (spec/60_exceptions.md R258): the faulted state first, then an illegal word, whose `CMD[31:24]` is
`top`, then the command's own rule. -/
def preamble (top : Byte) (legal : Bool) (s : State) (command : Result) : Result :=
  if s.faultCause ≠ .none then .next s.answerFaulted
  else if legal then command
  else .next (s.raiseFault .illegalCommand (top.zeroExtend 24))

/-- A presentable transaction whose word is illegal by R98 cases 1, 3 and 4: its payload is discarded
(spec/60_exceptions.md R253). -/
def illegalWord (top : Byte) (s : State) : Result := preamble top false s (.next s)

/-! ### The host's inputs -/

/-- The host's oldest input is taken from the port. -/
def State.dequeue (s : State) (rest : List HostInput) : State := { s with inbox := rest }

/-- The host presents a transaction to be taken next. -/
def State.present (s : State) (t : Transaction) : State := { s with inbox := .transaction t :: s.inbox }

/-- The reset input (spec/70_reset_and_hazards.md R280, R281): every state element takes its reset value; the
configuration stays; there is no response. It closes the current run and starts one that has no response yet (R292).
The model's own inputs and draw count stay (log 2, log 3). -/
def State.resetInput (s : State) : State :=
  { State.resetOf s.cfg with draws := s.draws, inbox := s.inbox, pastRuns := s.pastRuns ++ [s.outbox] }

end Sys2Proof.Machine
end

