-- ==== Sys2Proof/Machine/Operands.lean ====
section
/-! DEFINITION. How a command reaches the bytes of the store: logical placement, the logical content, the two-slice
view and its sub-ranges (spec/20_memory.md R52 to R56). -/

namespace Sys2Proof.Machine

/-- `phys(i)`, the physical cell of logical byte `i` (R52, R53). -/
def State.phys (s : State) (i : Nat) : Nat :=
  match s.cfg.layout with
  | .ring => (s.head.toNat + i) % s.capacity
  | .contiguous => i

/-- `(i - HEAD) mod N`, the logical offset of physical cell `i`, with the non-negative remainder
(spec/40_buffer.md R126). -/
def State.offsetOf (s : State) (i : Nat) : Nat := (i + (s.capacity - s.head.toNat % s.capacity)) % s.capacity

/-- Cell `i` holds a byte of the content: `(i - HEAD) mod N < LEN` (spec/40_buffer.md R126, R52). -/
def State.occupied (s : State) (i : Nat) : Bool := decide (s.offsetOf i < s.len.toNat)

/-- `CONTENT` (R54): the bytes `byte(0) .. byte(LEN-1)`; none if one of these cells holds no specified value, which
happens in no state that satisfies `State.Inv` (log 4). -/
def State.content (s : State) : Option (List Byte) := s.store.readAll ((List.range s.len.toNat).map s.phys)

/-- A slice descriptor: the physical cells `start .. start + len - 1` (R55). -/
structure Slice where
  start : Nat
  len : Nat
deriving DecidableEq, Repr

/-- The cells a descriptor names, in order (R55). -/
def Slice.cells (d : Slice) : List Nat := List.range' d.start d.len

/-- A descriptor; one of length 0 is always `(0, 0)` (R55). -/
def slice (start len : Nat) : Slice := if 0 < len then ⟨start, len⟩ else ⟨0, 0⟩

/-- `view()` (R55). -/
def State.view (s : State) : Slice × Slice :=
  let a := min s.len.toNat (s.capacity - s.head.toNat)
  (slice s.head.toNat a, slice 0 (s.len.toNat - a))

/-- `subrange(lo, hi)` (R56): the descriptors of the logical bytes `lo .. hi - 1`. -/
def State.subrange (s : State) (lo hi : Nat) : Slice × Slice :=
  let a := s.view.1.len
  let p1 : Slice :=
    if lo < a ∧ 0 < min hi a - lo then ⟨s.view.1.start + lo, min hi a - lo⟩ else ⟨0, 0⟩
  let m := max lo a
  let p2 : Slice :=
    if a < hi ∧ 0 < hi - m then ⟨s.view.2.start + (m - a), hi - m⟩ else ⟨0, 0⟩
  (p1, p2)

/-- The OK response of DATA and BODY: the two descriptors as four extra words (spec/30_encoding.md R96, R97). -/
def viewResponse (v : Slice × Slice) : Response :=
  ⟨.ok, .none, 0#24, [BitVec.ofNat 24 v.1.start, BitVec.ofNat 24 v.1.len, BitVec.ofNat 24 v.2.start, BitVec.ofNat 24 v.2.len]⟩

/-- The effect of FILL on the buffer (spec/40_buffer.md R123): bytes go to the cells from `(HEAD + LEN) mod N` on. -/
def State.appendBytes (s : State) (bytes : List Byte) : State :=
  { s with
    store := Memory.writeRun s.capacity s.store (s.head.toNat + s.len.toNat) bytes
    len := BitVec.ofNat 24 (s.len.toNat + bytes.length) }

/-- The effect of CONSUME on the buffer for `n <= LEN` (spec/40_buffer.md R124). Under RING, HEAD moves and no byte
does; the evicted cells no longer hold a specified value (R63, log 5). Under CONTIGUOUS the rest shifts down. -/
def State.evict (s : State) (n : Nat) : State :=
  match s.cfg.layout with
  | .ring =>
    { s with
      store := s.store.forget fun a => decide (s.offsetOf a < n)
      head := BitVec.ofNat 24 ((s.head.toNat + n) % s.capacity)
      len := BitVec.ofNat 24 (s.len.toNat - n) }
  | .contiguous =>
    { s with
      store := s.store.shiftDown n s.len.toNat
      len := BitVec.ofNat 24 (s.len.toNat - n) }

end Sys2Proof.Machine
end

