-- ==== Sys2Proof/Machine/Flags.lean ====
section
/-! DEFINITION. The derived flags and the status word (spec/10_state.md R24, R29, R31; spec/45_system.md R240). -/

namespace Sys2Proof.Machine

/-- `EMPTY = (LEN = 0)` (R24). -/
def State.isEmpty (s : State) : Bool := decide (s.len.toNat = 0)

/-- `FULL = (LEN = N)` (R24). -/
def State.isFull (s : State) : Bool := decide (s.len.toNat = s.capacity)

/-- `FREE = N - LEN` (R24). -/
def State.free (s : State) : Nat := s.capacity - s.len.toNat

/-- The host-visible CRC commands exist (spec/00_scope.md R7). -/
def State.crcPresent (s : State) : Bool := decide (s.cfg.crcUnit = .present)

/-- `STATUS` (R29): bits 23:6 are 0, then CRC_UNIT, CRC_VARIANT, LAYOUT, TOK_VALID, FULL and EMPTY at bit 0. -/
def State.status (s : State) : Count :=
  0#18 ++ BitVec.ofBool s.crcPresent ++ BitVec.ofBool (decide (s.cfg.crcVariant = .ibm3740))
    ++ BitVec.ofBool (decide (s.cfg.layout = .contiguous)) ++ BitVec.ofBool s.tokValid
    ++ BitVec.ofBool s.isFull ++ BitVec.ofBool s.isEmpty

end Sys2Proof.Machine
end

