-- ==== Sys2Proof/Machine/Buffer.lean ====
section
/-! DEFINITION. The ring-buffer controller's commands (spec/40_buffer.md R120 to R126). -/

namespace Sys2Proof.Machine

/-- CAP (R120). -/
def execCap (s : State) : Result :=
  preamble (Instr.topByte .cap) true s (.next (s.respond (okResponse (BitVec.ofNat 24 s.capacity))))

/-- LEN (R121). -/
def execLen (s : State) : Result :=
  preamble (Instr.topByte .len) true s (.next (s.respond (okResponse s.len)))

/-- FULL (R122). -/
def execFull (s : State) : Result :=
  preamble (Instr.topByte .full) true s (.next (s.respond (okResponse (if s.isFull then 1#24 else 0#24))))

/-- FILL (R123): the first `min(k, N - LEN)` payload bytes are appended, the rest is discarded. -/
def execFill (payload : List Byte) (s : State) : Result :=
  let acc := min payload.length s.free
  preamble (Instr.topByte (.fill payload)) true s
    (.next ((s.appendBytes (payload.take acc)).clearToken.respond (okResponse (BitVec.ofNat 24 acc))))

/-- CONSUME (R124). -/
def execConsume (n : Count) (s : State) : Result :=
  preamble (Instr.topByte (.consume n)) true s
    (if s.len.toNat < n.toNat then .next (s.raiseFault .evictOverrun n)
     else .next ((s.evict n.toNat).clearToken.respond (okResponse 0#24)))

/-- DATA (R125). -/
def execData (s : State) : Result :=
  preamble (Instr.topByte .data) true s (.next (s.respond (viewResponse s.view)))

/-- RDB (R126): a cell of the content gives its byte; any other cell gives a `draw()` (spec/20_memory.md R63). -/
def execRdb (i : Count) (s : State) : Result :=
  preamble (Instr.topByte (.rdb i)) true s
    (if s.capacity ≤ i.toNat then .next (s.raiseFault .indexRange i)
     else if s.occupied i.toNat then
       match s.store.read i.toNat with
       | some b => .next (s.respond (okResponse (b.zeroExtend 24)))
       | none => .fault .unspecifiedCell
     else .next (s.takeDraw.respond (okResponse (s.nextDraw.zeroExtend 24))))

end Sys2Proof.Machine
end

