-- ==== Sys2Proof/Machine/Crc.lean ====
section
/-! DEFINITION. The CRC unit's commands (spec/43_crc.md R219 to R221); with `CRC_UNIT = ABSENT` their words are illegal
(spec/30_encoding.md R98 case 2, spec/45_system.md R242). -/

namespace Sys2Proof.Machine

/-- CRCI (R219). -/
def execCrci (s : State) : Result :=
  preamble (Instr.topByte .crci) s.crcPresent s
    (.next ((s.setCrcAcc (crcInit s.cfg.crcVariant)).respond (okResponse 0#24)))

/-- CRCU (R220). -/
def execCrcu (payload : List Byte) (s : State) : Result :=
  preamble (Instr.topByte (.crcu payload)) s.crcPresent s
    (.next ((s.setCrcAcc (crcFold s.cfg.crcVariant s.crcAcc payload)).respond (okResponse 0#24)))

/-- CRCR (R221): the final XOR is 0. -/
def execCrcr (s : State) : Result :=
  preamble (Instr.topByte .crcr) s.crcPresent s (.next (s.respond (okResponse (s.crcAcc.zeroExtend 24))))

end Sys2Proof.Machine
end

