-- ==== Sys2Proof/Machine/Frame.lean ====
section
/-! DEFINITION. The frame wire format (spec/30_encoding.md R80 to R87) and the frame parser's scan over a content
(spec/41_parser.md R160 to R170). -/

namespace Sys2Proof.Machine

/-- The first byte of `STX` (spec/20_memory.md R58). -/
def stx0 : Byte := 0xEB#8

/-- The second byte of `STX` (spec/20_memory.md R58). -/
def stx1 : Byte := 0x90#8

/-- The first byte of `ETX` (spec/20_memory.md R58). -/
def etx0 : Byte := 0xC5#8

/-- The second byte of `ETX` (spec/20_memory.md R58). -/
def etx1 : Byte := 0x79#8

/-- `byte(i)` of a content (spec/20_memory.md R54). Every caller has checked that the offset lies in the content, so
the value past the end is never read. -/
def byteAt (content : List Byte) (i : Nat) : Byte := content.getD i 0#8

/-- `read16(i)`, big-endian: `byte(i) * 256 + byte(i + 1)` (spec/20_memory.md R57). -/
def read16 (content : List Byte) (i : Nat) : U16 :=
  BitVec.ofNat 16 ((byteAt content i).toNat * 256 + (byteAt content (i + 1)).toNat)

/-- `frame_size(L) = L + 8`, without wrap-around (spec/30_encoding.md R83). -/
def frameSize (bodyLen : U16) : Nat := bodyLen.toNat + 8

/-- The least offset at which STX matches (R162). -/
def findStx : List Byte → Option Nat
  | a :: b :: rest => if a = stx0 ∧ b = stx1 then some 0 else (findStx (b :: rest)).map (· + 1)
  | _ => none

/-- The outcome of a READ (R160). -/
inductive ReadOutcome where
  | incomplete
  | junk (kind : JunkKind) (skip : Nat)
  | frame (bodyLen : U16)
deriving DecidableEq, Repr

/-- The checks after STX at offset 0 (R165 to R170), for a content of at least 8 bytes. -/
def parseCandidate (capacity : Nat) (v : CrcVariant) (content : List Byte) : ReadOutcome :=
  let bodyLen := read16 content 2
  let fs := frameSize bodyLen
  if capacity < fs then .junk .invalidLength 2
  else if content.length < fs then .incomplete
  else if ¬ (byteAt content (fs - 2) = etx0 ∧ byteAt content (fs - 1) = etx1) then .junk .invalidEtx 2
  else if crc16 v ((content.drop 4).take bodyLen.toNat) ≠ read16 content (4 + bodyLen.toNat) then .junk .invalidCrc 2
  else .frame bodyLen

/-- The ordered checks of READ over a content (R160 to R170, R173). -/
def parseContent (capacity : Nat) (v : CrcVariant) (content : List Byte) : ReadOutcome :=
  if content.length < 8 then .incomplete
  else
    match findStx content with
    | none => .junk .invalidStx (content.length - 1)
    | some 0 => parseCandidate capacity v content
    | some (p + 1) => .junk .invalidStx (p + 1)

/-- The response of a READ outcome (R160; spec/30_encoding.md R97). -/
def ReadOutcome.response : ReadOutcome → Response
  | .incomplete => ⟨.incomplete, .none, 0#24, []⟩
  | .junk kind skip => ⟨.junk, .junk kind, BitVec.ofNat 24 skip, []⟩
  | .frame bodyLen => ⟨.frame, .none, bodyLen.zeroExtend 24, []⟩

/-- The outcome READ finds in a state: with fewer than 8 bytes it looks at none of them (R161). None if a cell of the
content holds no specified value (log 4). -/
def State.readOutcome (s : State) : Option ReadOutcome :=
  if s.len.toNat < 8 then some .incomplete
  else
    match s.content with
    | some content => some (parseContent s.capacity s.cfg.crcVariant content)
    | none => none

/-- The token update of READ (R171). -/
def State.updateToken (s : State) : ReadOutcome → State
  | .incomplete => s.clearToken
  | .junk _ _ => s.clearToken
  | .frame bodyLen => s.armToken bodyLen

/-- A 16-bit number as two bytes, the most significant first (spec/20_memory.md R57, spec/30_encoding.md R80). -/
def bigEndian16 (x : U16) : List Byte := [x.extractLsb' 8 8, x.extractLsb' 0 8]

/-- The reference encoder `Encode(body)` (spec/30_encoding.md R86), no command of the block; none stands for
`BodyTooLarge` (R87). -/
def encodeFrame (v : CrcVariant) (body : List Byte) : Option (List Byte) :=
  if 65535 < body.length then none
  else some ([stx0, stx1] ++ bigEndian16 (BitVec.ofNat 16 body.length) ++ body ++ bigEndian16 (crc16 v body) ++ [etx0, etx1])

end Sys2Proof.Machine
end

