-- ==== Sys2Proof/Machine/Parser.lean ====
section
/-! DEFINITION. The frame parser's command (spec/41_parser.md R160). -/

namespace Sys2Proof.Machine

/-- READ (R160): classifies the content, updates the token, evicts nothing. -/
def execRead (s : State) : Result :=
  preamble (Instr.topByte .read) true s
    (match s.readOutcome with
     | some out => .next ((s.updateToken out).respond out.response)
     | none => .fault .unspecifiedCell)

end Sys2Proof.Machine
end

