-- ==== Sys2Proof/Machine/System.lean ====
section
/-! DEFINITION. The status command (spec/45_system.md R240). -/

namespace Sys2Proof.Machine

/-- STAT (R240). -/
def execStat (s : State) : Result :=
  preamble (Instr.topByte .stat) true s (.next (s.respond (okResponse s.status)))

end Sys2Proof.Machine
end

