-- ==== Sys2Proof/Machine/Token.lean ====
section
/-! DEFINITION. The frame token's commands (spec/42_token.md R190 to R194). -/

namespace Sys2Proof.Machine

/-- A command of the token without a valid one raises `STALE_TOKEN` with its opcode (spec/60_exceptions.md R255). -/
def needToken (opcode : BitVec 4) (s : State) (command : Result) : Result :=
  if s.tokValid then command else .next (s.raiseFault .staleToken (opcode.zeroExtend 24))

/-- BODY (R191): the descriptors of the validated body; the token stays. -/
def execBody (s : State) : Result :=
  preamble (Instr.topByte .body) true s
    (needToken (Instr.opcode .body) s
      (.next (s.respond (viewResponse (s.subrange 4 (4 + s.tokBodyLen.toNat))))))

/-- CONV (R192): the frame size; the token is spent. -/
def execConv (s : State) : Result :=
  preamble (Instr.topByte .conv) true s
    (needToken (Instr.opcode .conv) s
      (.next (s.clearToken.respond (okResponse (BitVec.ofNat 24 (frameSize s.tokBodyLen))))))

end Sys2Proof.Machine
end

