-- ==== Sys2Proof/Machine/Dispatch.lean ====
section
/-! DEFINITION. One arm for each command (spec/30_encoding.md R92). -/

namespace Sys2Proof.Machine

def exec (i : Instr) (s : State) : Host.Outcome State Fault Refusal :=
  match i with
  | .cap => Sys2Proof.Machine.execCap s
  | .len => Sys2Proof.Machine.execLen s
  | .full => Sys2Proof.Machine.execFull s
  | .fill payload => Sys2Proof.Machine.execFill payload s
  | .consume n => Sys2Proof.Machine.execConsume n s
  | .data => Sys2Proof.Machine.execData s
  | .rdb index => Sys2Proof.Machine.execRdb index s
  | .read => Sys2Proof.Machine.execRead s
  | .body => Sys2Proof.Machine.execBody s
  | .conv => Sys2Proof.Machine.execConv s
  | .crci => Sys2Proof.Machine.execCrci s
  | .crcu payload => Sys2Proof.Machine.execCrcu payload s
  | .crcr => Sys2Proof.Machine.execCrcr s
  | .stat => Sys2Proof.Machine.execStat s

end Sys2Proof.Machine
end

