-- ==== Sys2Proof/Machine/Port.lean ====
section
/-! DEFINITION. What the block takes from its command port next (spec/30_encoding.md R88, R100; log 2). -/

namespace Sys2Proof.Machine

/-- The host's oldest input, decoded, with the state after it is taken. -/
inductive Taken where
  /-- no input: the block is idle (spec/60_exceptions.md R268) -/
  | nothing
  /-- the reset input (spec/70_reset_and_hazards.md R281) -/
  | reset (s : State)
  /-- an assigned command word -/
  | command (i : Instr) (s : State)
  /-- a word that is illegal whatever the configuration -/
  | illegal (top : Byte) (s : State)
  /-- a transaction that cannot be presented (R88) -/
  | mismatch
deriving DecidableEq, Repr

/-- Take the host's oldest input and decode it. -/
def takeInput (s : State) : Taken :=
  match s.inbox with
  | [] => .nothing
  | .reset :: rest => .reset (s.dequeue rest)
  | .transaction t :: rest =>
    match decode t with
    | .instr i => .command i (s.dequeue rest)
    | .illegal top => .illegal top (s.dequeue rest)
    | .notPresentable => .mismatch

end Sys2Proof.Machine
end

