-- ==== Sys2Proof/Machine/Step.lean ====
section
/-! DEFINITION. One step of the block: one host input (spec/00_scope.md R3, spec/20_memory.md R61, R64). -/

namespace Sys2Proof.Machine

/-- One step: the host's oldest input, whole, or nothing where there is none. -/
def step (s : State) : Host.Outcome State Fault Refusal :=
  match takeInput s with
  | .nothing => .next s
  | .reset s' => .next s'.resetInput
  | .command i s' => exec i s'
  | .illegal top s' => illegalWord top s'
  | .mismatch => .refused .payloadMismatch

/-- The host presents the table's word to be taken by the very next step (log 2). -/
def State.withFetchWord (s : State) (nbits w : Nat) : State := s.present (tableTransaction nbits w)

end Sys2Proof.Machine
end

