-- ==== Sys2Proof/Machine/Driver.lean ====
section
/-! DEFINITION. What a host does with the commands, as far as the spec states laws about it: a sequence of commands,
and the skip loop of spec/41_parser.md R176 (spec/70_reset_and_hazards.md R284). No part of the block. -/

namespace Sys2Proof.Machine

/-- The host issues commands one after another (spec/20_memory.md R64). -/
def execAll : List Instr → State → Result
  | [], s => .next s
  | i :: rest, s =>
    match exec i s with
    | .next t => execAll rest t
    | .fault r => .fault r
    | .refused r => .refused r

/-- The response a command has just given. -/
def State.lastResponse (s : State) : Option Response := s.outbox.getLast?

/-- The skip loop with at most `k` skips: READ, and after each JUNK a CONSUME of its skip length (R176, R284). -/
def resync : Nat → State → Result
  | 0, s => exec .read s
  | k + 1, s =>
    match exec .read s with
    | .next t =>
      match t.lastResponse with
      | some ⟨.junk, _, skip, _⟩ =>
        match exec (.consume skip) t with
        | .next u => resync k u
        | .fault r => .fault r
        | .refused r => .refused r
      | _ => .next t
    | .fault r => .fault r
    | .refused r => .refused r

end Sys2Proof.Machine
end

