-- ==== Sys2Proof/Machine/Run.lean ====
section
/-! DEFINITION. A run of the block and how it ends (spec/70_reset_and_hazards.md R292; log 2). -/

namespace Sys2Proof.Machine

/-- So many steps, one after another (spec/20_memory.md R64). -/
def steps : Nat → State → Result
  | 0, s => .next s
  | k + 1, s =>
    match step s with
    | .next t => steps k t
    | .fault r => .fault r
    | .refused r => .refused r

/-- The run has ended: the block has answered its last transaction, and the host's next input, if there is one, is the
reset that comes before another run (R292). -/
def State.runEnded (s : State) : Bool :=
  match s.inbox with
  | [] => true
  | .reset :: _ => true
  | .transaction _ :: _ => false

/-- Some response of the run was FAULTED (R292). -/
def State.runFaulted (s : State) : Bool := s.outbox.any fun r => decide (r.rcode = .faulted)

/-- The run has ended normally: no response of it was FAULTED (R292). -/
def State.endedNormally (s : State) : Bool := s.runEnded && !s.runFaulted

/-- The run has ended faulted: some response of it was FAULTED (R292). -/
def State.endedFaulted (s : State) : Bool := s.runEnded && s.runFaulted

end Sys2Proof.Machine
end

