-- ==== Sys2Proof/Safety.lean ====
section
/-! DEFINITION. What counts as a good state (spec/10_state.md R33, spec/70_reset_and_hazards.md R292), and the
predicates the statements use. -/

namespace Sys2Proof.Machine

/-- The block is not faulted (spec/10_state.md R26). -/
def State.Healthy (s : State) : Prop := s.faultCause = .none

/-- The five invariants of R33 and the store's: its canonical form, and that the cells listed are exactly those of the
content (spec/20_memory.md R52, R63). The fault clause is R33's 5. -/
structure State.Inv (s : State) : Prop where
  /-- R33, 1 -/
  len_le : s.len.toNat ≤ s.capacity
  /-- R33, 2 -/
  head_lt : s.head.toNat < s.capacity
  /-- R33, 2 -/
  head_contiguous : s.cfg.layout = .contiguous → s.head = 0#24
  /-- R33, 3 -/
  token_fits : s.tokValid = true → frameSize s.tokBodyLen ≤ s.len.toNat
  /-- R33, 3 -/
  token_frame : s.tokValid = true → s.readOutcome = some (.frame s.tokBodyLen)
  /-- R33, 4 -/
  token_clear : s.tokValid = false → s.tokBodyLen = 0#16
  /-- R33, 5 -/
  fault_clear : s.faultCause = .none → s.faultInfo = 0#24
  /-- the store's canonical form -/
  store_wf : s.store.wf = true
  /-- the cells that hold a specified byte are those of the content -/
  store_cells : ∀ a, (s.store.read a).isSome = true ↔ a < s.capacity ∧ s.occupied a = true

/-- The block is faulted exactly when a response of the current run was FAULTED: a run in which one was has an end
state with `FAULT_CAUSE != 0` (spec/70_reset_and_hazards.md R292), and only a reset leaves that state
(spec/60_exceptions.md R260). -/
def State.FaultShown (s : State) : Prop := s.faultCause ≠ .none ↔ s.runFaulted = true

/-- STX matches at offset `i` of a content (spec/20_memory.md R58). -/
def StxAt (content : List Byte) (i : Nat) : Prop := content[i]? = some 0xEB#8 ∧ content[i + 1]? = some 0x90#8

/-- ETX matches at offset `i` of a content (spec/20_memory.md R58). -/
def EtxAt (content : List Byte) (i : Nat) : Prop := content[i]? = some 0xC5#8 ∧ content[i + 1]? = some 0x79#8

/-- The big-endian 16-bit number at offset `i` of a content is `x` (spec/20_memory.md R57). -/
def Number16At (content : List Byte) (i x : Nat) : Prop :=
  ∃ hi lo, content[i]? = some hi ∧ content[i + 1]? = some lo ∧ x = hi.toNat * 256 + lo.toNat

/-- A candidate stands at the front of a content: STX at offset 0 and the LEN field `bodyLen` behind it
(spec/41_parser.md R165). -/
def CandidateAt0 (content : List Byte) (bodyLen : Nat) : Prop := StxAt content 0 ∧ Number16At content 2 bodyLen

/-- Two states of blocks that may differ in LAYOUT alone and hold the same content, token, fault and CRC state
(spec/40_buffer.md R129). -/
structure LayoutMatch (s u : State) : Prop where
  capacity : s.cfg.capacity = u.cfg.capacity
  crcUnit : s.cfg.crcUnit = u.cfg.crcUnit
  crcVariant : s.cfg.crcVariant = u.cfg.crcVariant
  content : s.content = u.content
  len : s.len = u.len
  tokValid : s.tokValid = u.tokValid
  tokBodyLen : s.tokBodyLen = u.tokBodyLen
  faultCause : s.faultCause = u.faultCause
  faultInfo : s.faultInfo = u.faultInfo
  crcAcc : s.crcAcc = u.crcAcc

end Sys2Proof.Machine
end

