-- ==== Sys2Proof/Certificates/Slice0/Obligations.lean ====
section
/-! DEFINITION. The statements for the provers. -/

open Sys2Proof Sys2Proof.Machine

/-- Decoding the encoding of any well-formed command gives that command back. For every command whose payload fits
the 24-bit ARG field, decode (encode i) is i, with every operand and every payload (R88, R89, R90, R92, R100;
derived). -/
def Obligations.DecodeInvertsEncode : Prop :=
  ∀ i : Instr, i.wellFormed = true → decode (encode i) = .instr i

/-- Each transaction that decodes is the encoding of the one command it decodes to. If a transaction decodes to a
command i, then i is well formed and encode i is that transaction: no bit of the word or payload is dropped
(R88, R89, R90, R92, R98, R100; derived). -/
def Obligations.DecodedCommandReencodes : Prop :=
  ∀ (t : Transaction) (i : Instr), decode t = .instr i → i.wellFormed = true ∧ encode i = t

/-- The words of the opcode map decode to their commands. One transaction for each row of the opcode map, its word
written out in hexadecimal from the rule, decodes to the row's command (R89, R92; derived). -/
def Obligations.OpcodeMapWordsDecode : Prop :=
  decode ⟨0x10000000#32, []⟩ = .instr .cap ∧ decode ⟨0x20000000#32, []⟩ = .instr .len ∧
    decode ⟨0x30000000#32, []⟩ = .instr .full ∧
    decode ⟨0x40000004#32, [0xEB#8, 0x90#8, 0x00#8, 0x04#8]⟩ = .instr (.fill [0xEB#8, 0x90#8, 0x00#8, 0x04#8]) ∧
    decode ⟨0x50FFFFFF#32, []⟩ = .instr (.consume 16777215#24) ∧ decode ⟨0x60000000#32, []⟩ = .instr .data ∧
    decode ⟨0x7000000E#32, []⟩ = .instr (.rdb 14#24) ∧ decode ⟨0x80000000#32, []⟩ = .instr .read ∧
    decode ⟨0x90000000#32, []⟩ = .instr .body ∧ decode ⟨0xA0000000#32, []⟩ = .instr .conv ∧
    decode ⟨0xB0000000#32, []⟩ = .instr .crci ∧ decode ⟨0xC0000001#32, [0xAA#8]⟩ = .instr (.crcu [0xAA#8]) ∧
    decode ⟨0xD0000000#32, []⟩ = .instr .crcr ∧ decode ⟨0xE0000000#32, []⟩ = .instr .stat

/-- A presentable word is assigned or illegal, and which of the two is R98 cases 1, 3 and 4. A presentable
transaction decodes to a command exactly where its word has an assigned opcode, RSV = 0, and ARG = 0 unless the
opcode takes an operand; otherwise it decodes to an illegal word with CMD[31:24]. Case 2 of R98 (CRC_UNIT =
ABSENT) is checked when the command runs (R98, R99, R90; derived). -/
def Obligations.WordDecodesUnlessReserved : Prop :=
  ∀ t : Transaction, t.payload.length = payloadLength t.cmd →
    ((∃ i, decode t = .instr i) ↔
      opField t.cmd ≠ 0x0#4 ∧ opField t.cmd ≠ 0xF#4 ∧ rsvField t.cmd = 0#4 ∧
        (argField t.cmd = 0#24 ∨ opField t.cmd ∈ [0x4#4, 0x5#4, 0x7#4, 0xC#4])) ∧
      ((∃ i, decode t = .instr i) ∨ decode t = .illegal (topByte t.cmd))

/-- An illegal command word raises ILLEGAL_COMMAND and changes nothing else. On a healthy block, a presentable
transaction whose word is illegal (opcode 0 or F; opcode B, C or D with CRC_UNIT = ABSENT; RSV nonzero; ARG
nonzero on a command that takes no operand) makes the step answer FAULTED with cause ILLEGAL_COMMAND and
CMD[31:24], record the pair, discard the payload, and change no other state (R98, R242, R253; stated). -/
def Obligations.IllegalWordFaults : Prop :=
  ∀ (s : State) (t : Transaction) (rest : List HostInput), s.Healthy → s.inbox = .transaction t :: rest →
    t.payload.length = payloadLength t.cmd →
    (opField t.cmd = 0x0#4 ∨ opField t.cmd = 0xF#4 ∨
      (opField t.cmd ∈ [0xB#4, 0xC#4, 0xD#4] ∧ s.cfg.crcUnit = .absent) ∨
      rsvField t.cmd ≠ 0#4 ∨
      (opField t.cmd ∉ [0x4#4, 0x5#4, 0x7#4, 0xC#4] ∧ argField t.cmd ≠ 0#24)) →
    step s = .next
      { s with
        inbox := rest
        faultCause := .illegalCommand
        faultInfo := (topByte t.cmd).zeroExtend 24
        outbox := s.outbox ++ [⟨.faulted, .cause .illegalCommand, (topByte t.cmd).zeroExtend 24, []⟩] }

/-- A step runs the command the host presented, after taking it from the port. When the oldest host input is a
transaction that decodes to i, step is exec of i at the state with that input taken from the inbox; nothing else
is added around exec. (The inbox is the model's own, log 2.) (R3, R64, R100; derived). -/
def Obligations.StepRunsDecodedCommand : Prop :=
  ∀ (s : State) (t : Transaction) (rest : List HostInput) (i : Instr),
    s.inbox = .transaction t :: rest → decode t = .instr i → step s = exec i { s with inbox := rest }

/-- A transaction with the wrong payload length has no step. A transaction whose payload length differs from what
its word says is refused by name; it is no fault of the block (R88, R100; derived). -/
def Obligations.UnpresentableTransactionRefused : Prop :=
  ∀ (s : State) (t : Transaction) (rest : List HostInput), s.inbox = .transaction t :: rest →
    t.payload.length ≠ (if opField t.cmd = 0x4#4 ∨ opField t.cmd = 0xC#4 then (argField t.cmd).toNat else 0) →
    step s = .refused .payloadMismatch

/-- With no host input the block is idle and holds its state. Where the host has offered nothing, a step is the same
state (60_exceptions.md R268, 70_reset_and_hazards.md R293; derived). -/
def Obligations.IdleBlockHoldsState : Prop :=
  ∀ s : State, s.inbox = [] → step s = .next s

/-- The reset input puts every register at its reset value and leaves the configuration. A step that takes the reset
input gives HEAD, LEN, the token and the fault state 0, CRC_ACC = INIT(CRC_VARIANT) when CRC_UNIT = PRESENT,
leaves the configuration, and gives no response: the responses given, of all runs together, are the ones before.
STORE is left unspecified by the rule and nothing is claimed of it (R280; stated). -/
def Obligations.ResetInputResets : Prop :=
  ∀ (s : State) (rest : List HostInput), s.inbox = .reset :: rest →
    ∃ t, step s = .next t ∧ t.head = 0#24 ∧ t.len = 0#24 ∧ t.tokValid = false ∧ t.tokBodyLen = 0#16 ∧
      t.faultCause = .none ∧ t.faultInfo = 0#24 ∧
      (s.cfg.crcUnit = .present → t.crcAcc = if s.cfg.crcVariant = .arc then 0x0000#16 else 0xFFFF#16) ∧
      t.cfg = s.cfg ∧ t.inbox = rest ∧ t.pastRuns.flatten ++ t.outbox = s.pastRuns.flatten ++ s.outbox

/-- The reset state of every instance has the values of the reset table. For every configuration the reset state has
HEAD, LEN, TOK_VALID, TOK_BODY_LEN, FAULT_CAUSE and FAULT_INFO 0 and CRC_ACC = INIT(CRC_VARIANT); State.reset is
that state for the standard instance. STORE is unspecified in the rule and nothing is claimed of it (R35;
stated). -/
def Obligations.ResetStateValues : Prop :=
  (∀ cfg : Config,
      (State.resetOf cfg).cfg = cfg ∧ (State.resetOf cfg).head = 0#24 ∧ (State.resetOf cfg).len = 0#24 ∧
      (State.resetOf cfg).tokValid = false ∧ (State.resetOf cfg).tokBodyLen = 0#16 ∧
      (State.resetOf cfg).faultCause = .none ∧ (State.resetOf cfg).faultInfo = 0#24 ∧
      (cfg.crcUnit = .present →
        (State.resetOf cfg).crcAcc = if cfg.crcVariant = .arc then 0x0000#16 else 0xFFFF#16)) ∧
    State.reset = State.resetOf Config.standard

/-- A faulted block answers every transaction FAULTED with the recorded pair and changes nothing. While FAULT_CAUSE
is nonzero, a step with any presentable transaction, legal or illegal, only takes it and answers FAULTED with
FAULT_CAUSE and FAULT_INFO; no other state changes (R257; stated). -/
def Obligations.FaultedBlockAnswersFaulted : Prop :=
  ∀ (s : State) (t : Transaction) (rest : List HostInput), s.faultCause ≠ .none → s.inbox = .transaction t :: rest →
    t.payload.length = payloadLength t.cmd →
    step s = .next
      { s with
        inbox := rest
        outbox := s.outbox ++ [⟨.faulted, .cause s.faultCause, s.faultInfo, []⟩] }

/-- No step but one that takes the reset input leaves the faulted state. If the block is faulted and a step gives a
next state while the oldest input is not the reset input, FAULT_CAUSE and FAULT_INFO are unchanged (R260, R26;
derived). -/
def Obligations.OnlyResetLeavesFaultedState : Prop :=
  ∀ s t : State, s.faultCause ≠ .none → s.inbox.head? ≠ some .reset → step s = .next t →
    t.faultCause = s.faultCause ∧ t.faultInfo = s.faultInfo

/-- Every step keeps the invariants of R33 and the store's form. If a state satisfies Inv (LEN <= N; HEAD < N and 0
under CONTIGUOUS; a valid token fits and READ would return its FRAME; an invalid token has length 0; no fault
means FAULT_INFO = 0; the store is in canonical form and lists exactly the cells of the content) and a step
gives a next state, that state satisfies Inv. The two store clauses are the model's (log 4, log 5) (R33, R52,
R63; derived). -/
def Obligations.StepKeepsInvariant : Prop :=
  ∀ s t : State, s.Inv → step s = .next t → t.Inv

/-- The reset state of every instance satisfies both invariants. For every configuration the reset state satisfies
Inv and shows no fault while no response was FAULTED, and so does State.reset (R33, R35, R292; derived). -/
def Obligations.ResetSatisfiesInvariant : Prop :=
  (∀ cfg : Config, (State.resetOf cfg).Inv ∧ (State.resetOf cfg).FaultShown) ∧
    State.reset.Inv ∧ State.reset.FaultShown

/-- No step changes N, LAYOUT, CRC_UNIT or CRC_VARIANT. Whatever a step takes, a reset input included, the
configuration after it is the one before. (The configuration rides in State, log 1.) (R20, R28, R280; derived). -/
def Obligations.StepKeepsConfiguration : Prop :=
  ∀ s t : State, step s = .next t → t.cfg = s.cfg

/-- Every presentable transaction is executed and answered by exactly one response. From every state that satisfies
Inv, a presentable transaction, legal or not, gives a next state (no stop), takes exactly that input, and adds
exactly one response, with four extra words for an OK answer to DATA or BODY and none otherwise (R88, R93, R33;
derived). -/
def Obligations.TransactionAnsweredOnce : Prop :=
  ∀ (s : State) (t : Transaction) (rest : List HostInput), s.Inv → s.inbox = .transaction t :: rest →
    t.payload.length = payloadLength t.cmd →
    ∃ u r, step s = .next u ∧ u.inbox = rest ∧ u.outbox = s.outbox ++ [r] ∧
      r.extra.length = if r.rcode = .ok ∧ (opField t.cmd = 0x6#4 ∨ opField t.cmd = 0x9#4) then 4 else 0

/-- A command that faults changes the fault state and nothing else. On a healthy block, if exec of any command gives
a state whose FAULT_CAUSE is nonzero, that state is the one before it except for FAULT_CAUSE, FAULT_INFO and the
one FAULTED response that carries them (R251, R62; derived). -/
def Obligations.FaultIsPrecise : Prop :=
  ∀ (i : Instr) (s t : State), s.Healthy → exec i s = .next t → t.faultCause ≠ .none →
    t = { s with
          faultCause := t.faultCause
          faultInfo := t.faultInfo
          outbox := s.outbox ++ [⟨.faulted, .cause t.faultCause, t.faultInfo, []⟩] }

/-- CAP answers N, LEN answers LEN, FULL answers 1 exactly when LEN = N, and none of them writes anything. On a
healthy block each of the three commands gives the same state with one OK response: CAP the value N (which fits
the 24-bit field), LEN the value LEN, FULL the value 1 if LEN = N and 0 otherwise (R120, R121, R122; stated). -/
def Obligations.BufferQueriesAnswer : Prop :=
  ∀ s : State, s.Healthy →
    exec .cap s = .next { s with outbox := s.outbox ++ [⟨.ok, .none, BitVec.ofNat 24 s.cfg.capacity, []⟩] } ∧
      (BitVec.ofNat 24 s.cfg.capacity).toNat = s.cfg.capacity ∧
      exec .len s = .next { s with outbox := s.outbox ++ [⟨.ok, .none, s.len, []⟩] } ∧
      exec .full s = .next
        { s with outbox := s.outbox ++ [⟨.ok, .none, if s.len.toNat = s.cfg.capacity then 1#24 else 0#24, []⟩] }

/-- FILL stores the first min(k, N - LEN) payload bytes, raises LEN by that count, clears the token and answers it.
On a healthy block FILL writes payload byte j to cell (HEAD + LEN + j) mod N for j below acc = min(k, N - LEN),
leaves every other cell as it was, sets LEN to LEN + acc, clears the token, answers acc, and changes no other
state (R123; stated). -/
def Obligations.FillStoresPayload : Prop :=
  ∀ (s : State) (payload : List Byte), s.Healthy →
    ∃ m : Memory,
      exec (.fill payload) s = .next
        { s with
          store := m
          len := BitVec.ofNat 24 (s.len.toNat + min payload.length (s.cfg.capacity - s.len.toNat))
          tokValid := false
          tokBodyLen := 0#16
          outbox := s.outbox ++
            [⟨.ok, .none, BitVec.ofNat 24 (min payload.length (s.cfg.capacity - s.len.toNat)), []⟩] } ∧
      (∀ j, j < min payload.length (s.cfg.capacity - s.len.toNat) →
        m.read ((s.head.toNat + s.len.toNat + j) % s.cfg.capacity) = payload[j]?) ∧
      (∀ a, (∀ j, j < min payload.length (s.cfg.capacity - s.len.toNat) →
          a ≠ (s.head.toNat + s.len.toNat + j) % s.cfg.capacity) →
        m.read a = s.store.read a)

/-- FILL appends the accepted bytes to the logical content. From a state that satisfies Inv, FILL makes CONTENT the
old content followed by the first min(k, N - LEN) payload bytes, and LEN becomes min(LEN + k, N) (R34, R127,
R123; derived). -/
def Obligations.FillAppendsToContent : Prop :=
  ∀ (s : State) (payload content : List Byte), s.Inv → s.Healthy → s.content = some content →
    ∃ t, exec (.fill payload) s = .next t ∧
      t.content = some (content ++ payload.take (s.cfg.capacity - s.len.toNat)) ∧
      t.len.toNat = min (s.len.toNat + payload.length) s.cfg.capacity

/-- Under RING, CONSUME moves HEAD, lowers LEN, clears the token and moves no byte. On a healthy RING block with n
<= LEN, CONSUME sets HEAD to (HEAD + n) mod N and LEN to LEN - n, clears the token, answers OK, and leaves every
cell that is not one of the n evicted ones as it was and all other state unchanged. Nothing is claimed of the
evicted cells (R63; log 5) (R124, R52; derived). -/
def Obligations.ConsumeRingMovesHead : Prop :=
  ∀ (s : State) (n : Count), s.Healthy → s.cfg.layout = .ring → n.toNat ≤ s.len.toNat →
    ∃ m : Memory,
      exec (.consume n) s = .next
        { s with
          store := m
          head := BitVec.ofNat 24 ((s.head.toNat + n.toNat) % s.cfg.capacity)
          len := BitVec.ofNat 24 (s.len.toNat - n.toNat)
          tokValid := false
          tokBodyLen := 0#16
          outbox := s.outbox ++ [⟨.ok, .none, 0#24, []⟩] } ∧
      ∀ a, n.toNat ≤ s.offsetOf a → m.read a = s.store.read a

/-- Under CONTIGUOUS, CONSUME shifts the content down, lowers LEN and clears the token. On a healthy CONTIGUOUS
block with n <= LEN and a canonical store, CONSUME leaves HEAD, sets LEN to LEN - n, clears the token, answers
OK, makes cell i below LEN - n hold what cell i + n held, and leaves the cells from LEN up and all other state
unchanged. Nothing is claimed of the vacated cells (R63; log 5) (R124, R53; derived). -/
def Obligations.ConsumeContiguousShifts : Prop :=
  ∀ (s : State) (n : Count), s.Healthy → s.cfg.layout = .contiguous → s.store.wf = true → n.toNat ≤ s.len.toNat →
    ∃ m : Memory,
      exec (.consume n) s = .next
        { s with
          store := m
          len := BitVec.ofNat 24 (s.len.toNat - n.toNat)
          tokValid := false
          tokBodyLen := 0#16
          outbox := s.outbox ++ [⟨.ok, .none, 0#24, []⟩] } ∧
      (∀ i, i < s.len.toNat - n.toNat → m.read i = s.store.read (i + n.toNat)) ∧
      (∀ a, s.len.toNat ≤ a → m.read a = s.store.read a)

/-- CONSUME drops the first n bytes of the logical content, whatever the layout. From a state that satisfies Inv
with n <= LEN, CONSUME makes CONTENT the old content without its first n bytes, and LEN becomes LEN - n (R34,
R127, R124; derived). -/
def Obligations.ConsumeDropsContent : Prop :=
  ∀ (s : State) (n : Count) (content : List Byte), s.Inv → s.Healthy → s.content = some content →
    n.toNat ≤ s.len.toNat →
    ∃ t, exec (.consume n) s = .next t ∧ t.content = some (content.drop n.toNat) ∧
      t.len.toNat = s.len.toNat - n.toNat

/-- CONSUME of more than LEN bytes raises EVICT_OVERRUN with the count. On a healthy block with n > LEN, CONSUME
records EVICT_OVERRUN and n, answers FAULTED, and changes no other state (R254; stated). -/
def Obligations.ConsumeOverrunFaults : Prop :=
  ∀ (s : State) (n : Count), s.Healthy → s.len.toNat < n.toNat →
    exec (.consume n) s = .next
      { s with
        faultCause := .evictOverrun
        faultInfo := n
        outbox := s.outbox ++ [⟨.faulted, .cause .evictOverrun, n, []⟩] }

/-- DATA answers the two-slice view of the whole content and writes nothing. On a healthy block, with a = min(LEN, N
- HEAD), DATA answers the extra words HEAD, a, 0, LEN - a, each descriptor of length 0 written (0, 0), and
changes nothing else (R125; stated). -/
def Obligations.DataAnswersView : Prop :=
  ∀ s : State, s.Healthy →
    exec .data s = .next
      { s with
        outbox := s.outbox ++
          [⟨.ok, .none, 0#24,
            [if 0 < min s.len.toNat (s.cfg.capacity - s.head.toNat) then s.head else 0#24,
              BitVec.ofNat 24 (min s.len.toNat (s.cfg.capacity - s.head.toNat)), 0#24,
              BitVec.ofNat 24 (s.len.toNat - min s.len.toNat (s.cfg.capacity - s.head.toNat))]⟩] }

/-- The cells of the two slices, in order, hold the content. In a state that satisfies Inv, reading the cells of S1
and then of S2 gives CONTENT; under CONTIGUOUS S2 is (0, 0); under RING S2 is non-empty exactly when HEAD + LEN
> N; a descriptor of length 0 is (0, 0) (R55; stated). -/
def Obligations.ViewReadsContent : Prop :=
  ∀ (s : State) (content : List Byte), s.Inv → s.content = some content →
    s.store.readAll (s.view.1.cells ++ s.view.2.cells) = some content ∧
      (s.cfg.layout = .contiguous → s.view.2 = ⟨0, 0⟩) ∧
      (s.cfg.layout = .ring → (0 < s.view.2.len ↔ s.cfg.capacity < s.head.toNat + s.len.toNat)) ∧
      (s.view.1.len = 0 → s.view.1 = ⟨0, 0⟩) ∧ (s.view.2.len = 0 → s.view.2 = ⟨0, 0⟩) ∧
      s.view.1.len = min s.len.toNat (s.cfg.capacity - s.head.toNat) ∧
      (0 < s.view.1.len → s.view.1.start = s.head.toNat) ∧ s.view.2.start = 0

/-- The cells of a sub-range hold its part of the content. In a state that satisfies Inv, for lo <= hi <= LEN,
reading the cells of P1 and then of P2 gives the content from lo up to hi, the two lengths add up to hi - lo,
each descriptor lies inside its slice, and one of length 0 is (0, 0) (R56; derived). -/
def Obligations.SubrangeReadsContent : Prop :=
  ∀ (s : State) (content : List Byte) (lo hi : Nat), s.Inv → s.content = some content → lo ≤ hi → hi ≤ s.len.toNat →
    s.store.readAll ((s.subrange lo hi).1.cells ++ (s.subrange lo hi).2.cells) = some ((content.take hi).drop lo) ∧
      (s.subrange lo hi).1.len + (s.subrange lo hi).2.len = hi - lo ∧
      (∀ a ∈ (s.subrange lo hi).1.cells, a ∈ s.view.1.cells) ∧
      (∀ a ∈ (s.subrange lo hi).2.cells, a ∈ s.view.2.cells) ∧
      ((s.subrange lo hi).1.len = 0 → (s.subrange lo hi).1 = ⟨0, 0⟩) ∧
      ((s.subrange lo hi).2.len = 0 → (s.subrange lo hi).2 = ⟨0, 0⟩)

/-- RDB of a cell inside the content answers the logical byte that cell holds. From a healthy state that satisfies
Inv, for i < N with (i - HEAD) mod N < LEN, RDB i answers CONTENT[(i - HEAD) mod N], zero-extended, and changes
nothing else (R126, R34; derived). -/
def Obligations.RdbReadsContentByte : Prop :=
  ∀ (s : State) (i : Count) (content : List Byte), s.Inv → s.Healthy → s.content = some content →
    i.toNat < s.cfg.capacity → s.offsetOf i.toNat < s.len.toNat →
    ∃ b, content[s.offsetOf i.toNat]? = some b ∧
      exec (.rdb i) s = .next { s with outbox := s.outbox ++ [⟨.ok, .none, b.zeroExtend 24, []⟩] }

/-- RDB of a cell outside the content answers a free byte and writes no state of the block. On a healthy block, for
i < N with (i - HEAD) mod N >= LEN, RDB i answers the next free byte (Config.freeByte, of which nothing is
known), zero-extended; only the model's own draw count moves (log 3) (R63, R11, R126; derived). -/
def Obligations.RdbOutsideContentDraws : Prop :=
  ∀ (s : State) (i : Count), s.Healthy → i.toNat < s.cfg.capacity → s.len.toNat ≤ s.offsetOf i.toNat →
    exec (.rdb i) s = .next
      { s with
        draws := s.draws + 1
        outbox := s.outbox ++ [⟨.ok, .none, (Config.freeByte s.draws).zeroExtend 24, []⟩] }

/-- RDB of an index from N up raises INDEX_RANGE with the index. On a healthy block with i >= N, RDB records
INDEX_RANGE and i, answers FAULTED, and changes no other state (R256, R126; derived). -/
def Obligations.RdbIndexRangeFaults : Prop :=
  ∀ (s : State) (i : Count), s.Healthy → s.cfg.capacity ≤ i.toNat →
    exec (.rdb i) s = .next
      { s with
        faultCause := .indexRange
        faultInfo := i
        outbox := s.outbox ++ [⟨.faulted, .cause .indexRange, i, []⟩] }

/-- READ with fewer than 8 bytes buffered answers INCOMPLETE. On a healthy block with LEN < 8, READ clears the
token, answers INCOMPLETE, and changes nothing else, whatever the bytes are (R161; stated). -/
def Obligations.ReadNeedsEightBytes : Prop :=
  ∀ s : State, s.Healthy → s.len.toNat < 8 →
    exec .read s = .next
      { s with tokValid := false, tokBodyLen := 0#16, outbox := s.outbox ++ [⟨.incomplete, .none, 0#24, []⟩] }

/-- READ without STX at offset 0 answers INVALID_STX with the skip length of the search. On a healthy block with at
least 8 bytes buffered: if STX matches nowhere, READ answers JUNK(INVALID_STX, LEN - 1); if it matches first at
p > 0, JUNK(INVALID_STX, p). The token is cleared and nothing else changes (R162, R163, R164; stated). -/
def Obligations.ReadReportsInvalidStx : Prop :=
  ∀ (s : State) (content : List Byte), s.Healthy → s.content = some content → 8 ≤ s.len.toNat →
    ((∀ i, ¬ StxAt content i) →
      exec .read s = .next
        { s with
          tokValid := false
          tokBodyLen := 0#16
          outbox := s.outbox ++ [⟨.junk, .junk .invalidStx, BitVec.ofNat 24 (s.len.toNat - 1), []⟩] }) ∧
    (∀ p, 0 < p → StxAt content p → (∀ i, i < p → ¬ StxAt content i) →
      exec .read s = .next
        { s with
          tokValid := false
          tokBodyLen := 0#16
          outbox := s.outbox ++ [⟨.junk, .junk .invalidStx, BitVec.ofNat 24 p, []⟩] })

/-- READ of a candidate larger than N answers INVALID_LENGTH without waiting for it. On a healthy block with at
least 8 bytes buffered and a candidate at offset 0 whose LEN field L has L + 8 > N, READ answers
JUNK(INVALID_LENGTH, 2) however many bytes have arrived; the token is cleared and nothing else changes (R166;
stated). -/
def Obligations.ReadChecksCapacity : Prop :=
  ∀ (s : State) (content : List Byte) (bodyLen : Nat), s.Healthy → s.content = some content → 8 ≤ s.len.toNat →
    CandidateAt0 content bodyLen → s.cfg.capacity < bodyLen + 8 →
    exec .read s = .next
      { s with
        tokValid := false
        tokBodyLen := 0#16
        outbox := s.outbox ++ [⟨.junk, .junk .invalidLength, 2#24, []⟩] }

/-- READ of a candidate not fully arrived answers INCOMPLETE. On a healthy block with at least 8 bytes buffered and
a candidate at offset 0 with L + 8 <= N and LEN < L + 8, READ answers INCOMPLETE; the token is cleared and
nothing else changes (R167; stated). -/
def Obligations.ReadWaitsForWholeFrame : Prop :=
  ∀ (s : State) (content : List Byte) (bodyLen : Nat), s.Healthy → s.content = some content → 8 ≤ s.len.toNat →
    CandidateAt0 content bodyLen → bodyLen + 8 ≤ s.cfg.capacity → s.len.toNat < bodyLen + 8 →
    exec .read s = .next
      { s with tokValid := false, tokBodyLen := 0#16, outbox := s.outbox ++ [⟨.incomplete, .none, 0#24, []⟩] }

/-- READ of a whole candidate without ETX at its end answers INVALID_ETX, whatever its CRC. On a healthy block with
a whole candidate at offset 0 (L + 8 <= N and <= LEN) whose two last bytes are not C5 79, READ answers
JUNK(INVALID_ETX, 2), even where the CRC is wrong too; the token is cleared and nothing else changes (R168,
R173, R181; derived). -/
def Obligations.ReadChecksEtx : Prop :=
  ∀ (s : State) (content : List Byte) (bodyLen : Nat), s.Healthy → s.content = some content →
    CandidateAt0 content bodyLen → bodyLen + 8 ≤ s.cfg.capacity → bodyLen + 8 ≤ s.len.toNat →
    ¬ EtxAt content (bodyLen + 6) →
    exec .read s = .next
      { s with
        tokValid := false
        tokBodyLen := 0#16
        outbox := s.outbox ++ [⟨.junk, .junk .invalidEtx, 2#24, []⟩] }

/-- READ of a whole candidate with ETX and a wrong CRC field answers INVALID_CRC. On a healthy block with a whole
candidate at offset 0 that ends in ETX and whose CRC field differs from crc16 of its body, READ answers
JUNK(INVALID_CRC, 2); the token is cleared and nothing else changes (R169; stated). -/
def Obligations.ReadChecksCrc : Prop :=
  ∀ (s : State) (content : List Byte) (bodyLen field : Nat), s.Healthy → s.content = some content →
    CandidateAt0 content bodyLen → bodyLen + 8 ≤ s.cfg.capacity → bodyLen + 8 ≤ s.len.toNat →
    EtxAt content (bodyLen + 6) → Number16At content (bodyLen + 4) field →
    (crc16 s.cfg.crcVariant ((content.drop 4).take bodyLen)).toNat ≠ field →
    exec .read s = .next
      { s with
        tokValid := false
        tokBodyLen := 0#16
        outbox := s.outbox ++ [⟨.junk, .junk .invalidCrc, 2#24, []⟩] }

/-- READ of a whole candidate that passes every check answers FRAME and arms the token. On a healthy block with a
whole candidate at offset 0 that ends in ETX and whose CRC field equals crc16 of its body, READ answers
FRAME(L), sets TOK_VALID to 1 and TOK_BODY_LEN to L, and changes nothing else: nothing is evicted (R170, R171,
R222; derived). -/
def Obligations.ReadAcceptsFrame : Prop :=
  ∀ (s : State) (content : List Byte) (bodyLen field : Nat), s.Healthy → s.content = some content →
    CandidateAt0 content bodyLen → bodyLen + 8 ≤ s.cfg.capacity → bodyLen + 8 ≤ s.len.toNat →
    EtxAt content (bodyLen + 6) → Number16At content (bodyLen + 4) field →
    (crc16 s.cfg.crcVariant ((content.drop 4).take bodyLen)).toNat = field →
    exec .read s = .next
      { s with
        tokValid := true
        tokBodyLen := BitVec.ofNat 16 bodyLen
        outbox := s.outbox ++ [⟨.frame, .none, BitVec.ofNat 24 bodyLen, []⟩] }

/-- READ answers the same in any two states with the same content, N and CRC variant, and writes only the token. Two
healthy states with the same content, capacity and CRC variant, whatever their HEAD, layout, token, accumulator
and other cells, give the same response and the same token after READ, and nothing else of either state changes
(R172, R62, R222; derived). -/
def Obligations.ReadDependsOnContentOnly : Prop :=
  ∀ (s u : State) (content : List Byte), s.Healthy → u.Healthy → s.content = some content → u.content = some content →
    s.cfg.capacity = u.cfg.capacity → s.cfg.crcVariant = u.cfg.crcVariant →
    ∃ valid bodyLen r,
      exec .read s = .next { s with tokValid := valid, tokBodyLen := bodyLen, outbox := s.outbox ++ [r] } ∧
      exec .read u = .next { u with tokValid := valid, tokBodyLen := bodyLen, outbox := u.outbox ++ [r] }

/-- A junk skip length lies between 1 and LEN - 1, a frame size between 8 and LEN. On a healthy block, if READ gives
a next state, a JUNK answer's value s satisfies 1 <= s <= LEN - 1 and a FRAME answer's value L satisfies 8 <= L
+ 8 <= LEN (R174; derived). -/
def Obligations.ReadSkipBounds : Prop :=
  ∀ (s t : State) (r : Response), s.Healthy → exec .read s = .next t → t.outbox = s.outbox ++ [r] →
    (r.rcode = .junk → 1 ≤ r.value.toNat ∧ r.value.toNat ≤ s.len.toNat - 1) ∧
      (r.rcode = .frame → 8 ≤ r.value.toNat + 8 ∧ r.value.toNat + 8 ≤ s.len.toNat)

/-- Whenever READ answers INCOMPLETE, LEN < N. On a healthy block, if READ gives a next state and answers
INCOMPLETE, at least one more byte can be filled. The spec marks R175 as derived from its rules R161, R166, R167
and R5 (R175; derived). -/
def Obligations.IncompleteLeavesRoom : Prop :=
  ∀ (s t : State) (r : Response), s.Healthy → exec .read s = .next t → t.outbox = s.outbox ++ [r] →
    r.rcode = .incomplete → s.len.toNat < s.cfg.capacity

/-- READ and CONSUME of each junk skip reach INCOMPLETE or FRAME after at most LEN skips. From a healthy state that
satisfies Inv, the loop that READs and CONSUMEs each JUNK skip length, with at most LEN skips and no FILL
between, ends in a state whose last response is INCOMPLETE or FRAME, without a fault. The spec marks R176 as
derived from its rule R174. The loop is a host action, not a command (R176; derived). -/
def Obligations.ResyncTerminates : Prop :=
  ∀ s : State, s.Inv → s.Healthy →
    ∃ t r, resync s.len.toNat s = .next t ∧ t.outbox.getLast? = some r ∧
      (r.rcode = .incomplete ∨ r.rcode = .frame) ∧ t.Healthy

/-- An encoded frame that fits is received whole: FILL, READ, BODY, CONV, CONSUME. From any healthy state with an
empty buffer that satisfies Inv, any HEAD and layout, for a body with |body| + 8 <= N and F = Encode(body): FILL
F accepts all of F, READ answers FRAME(|body|), BODY answers descriptors whose cells hold the body in order,
CONV answers |body| + 8, and CONSUME of it leaves the buffer empty (R177, R86; derived). -/
def Obligations.FrameRoundTrip : Prop :=
  ∀ (s : State) (body frame : List Byte), s.Inv → s.Healthy → s.len = 0#24 → body.length + 8 ≤ s.cfg.capacity →
    encodeFrame s.cfg.crcVariant body = some frame →
    ∃ (t1 t2 t3 t4 t5 : State) (p1 p2 : Slice),
      exec (.fill frame) s = .next t1 ∧
      t1.outbox = s.outbox ++ [⟨.ok, .none, BitVec.ofNat 24 frame.length, []⟩] ∧
      exec .read t1 = .next t2 ∧
      t2.outbox = t1.outbox ++ [⟨.frame, .none, BitVec.ofNat 24 body.length, []⟩] ∧
      exec .body t2 = .next t3 ∧
      t3.outbox = t2.outbox ++
        [⟨.ok, .none, 0#24,
          [BitVec.ofNat 24 p1.start, BitVec.ofNat 24 p1.len, BitVec.ofNat 24 p2.start, BitVec.ofNat 24 p2.len]⟩] ∧
      (∀ a ∈ p1.cells ++ p2.cells, a < s.cfg.capacity) ∧
      t3.store.readAll (p1.cells ++ p2.cells) = some body ∧
      exec .conv t3 = .next t4 ∧
      t4.outbox = t3.outbox ++ [⟨.ok, .none, BitVec.ofNat 24 (body.length + 8), []⟩] ∧
      exec (.consume (BitVec.ofNat 24 (body.length + 8))) t4 = .next t5 ∧
      t5.outbox = t4.outbox ++ [⟨.ok, .none, 0#24, []⟩] ∧ t5.len = 0#24

/-- However an encoded frame is split into FILLs, READs before its end answer INCOMPLETE and the first after it
FRAME. From any healthy state with an empty buffer that satisfies Inv, for F = Encode(body) with |F| <= N: any
sequence of FILLs and READs whose payloads in order, followed by a last non-empty chunk, make up F runs without
a stop and answers each command in turn, INCOMPLETE to a READ and OK with the length of its chunk to a FILL; the
FILL of the last chunk answers its length, and the READ after it answers FRAME(|body|), arms the token with
|body|, and leaves the content F (R178, R86; derived). -/
def Obligations.ChunkedDeliverySameFrame : Prop :=
  ∀ (s : State) (body frame last : List Byte) (cmds : List Instr), s.Inv → s.Healthy → s.len = 0#24 →
    encodeFrame s.cfg.crcVariant body = some frame → frame.length ≤ s.cfg.capacity →
    (∀ i ∈ cmds, i = .read ∨ ∃ p, i = .fill p) → last ≠ [] → cmds.flatMap Instr.payload ++ last = frame →
    ∃ t u w, execAll cmds s = .next t ∧
      t.outbox = s.outbox ++
        (cmds.map fun i =>
          if i = .read then ⟨.incomplete, .none, 0#24, []⟩
          else ⟨.ok, .none, BitVec.ofNat 24 i.payload.length, []⟩) ∧
      exec (.fill last) t = .next u ∧ u.outbox = t.outbox ++ [⟨.ok, .none, BitVec.ofNat 24 last.length, []⟩] ∧
      exec .read u = .next w ∧
      w.outbox = u.outbox ++ [⟨.frame, .none, BitVec.ofNat 24 body.length, []⟩] ∧
      w.tokValid = true ∧ w.tokBodyLen = BitVec.ofNat 16 body.length ∧ w.content = some frame

/-- Frame, junk without STX, frame: READ and the host's skips recover both frames and one junk event. From a healthy
state that satisfies Inv whose content is Encode(A) ++ J ++ Encode(B), J non-empty and without STX: READ, CONV,
CONSUME, READ, CONSUME of |J|, READ, CONV, CONSUME, READ run without a stop and answer FRAME(|A|), |A| + 8, OK,
JUNK(INVALID_STX, |J|), OK, FRAME(|B|), |B| + 8, OK, INCOMPLETE (R179, R102; derived). -/
def Obligations.JunkResynchronises : Prop :=
  ∀ (s : State) (bodyA bodyB junk frameA frameB : List Byte), s.Inv → s.Healthy →
    encodeFrame s.cfg.crcVariant bodyA = some frameA → encodeFrame s.cfg.crcVariant bodyB = some frameB →
    junk ≠ [] → (∀ i, ¬ StxAt junk i) → s.content = some (frameA ++ junk ++ frameB) →
    ∃ t,
      execAll
        [.read, .conv, .consume (BitVec.ofNat 24 (bodyA.length + 8)), .read, .consume (BitVec.ofNat 24 junk.length),
          .read, .conv, .consume (BitVec.ofNat 24 (bodyB.length + 8)), .read] s = .next t ∧
      t.outbox = s.outbox ++
        [⟨.frame, .none, BitVec.ofNat 24 bodyA.length, []⟩, ⟨.ok, .none, BitVec.ofNat 24 (bodyA.length + 8), []⟩,
          ⟨.ok, .none, 0#24, []⟩, ⟨.junk, .junk .invalidStx, BitVec.ofNat 24 junk.length, []⟩,
          ⟨.ok, .none, 0#24, []⟩, ⟨.frame, .none, BitVec.ofNat 24 bodyB.length, []⟩,
          ⟨.ok, .none, BitVec.ofNat 24 (bodyB.length + 8), []⟩, ⟨.ok, .none, 0#24, []⟩,
          ⟨.incomplete, .none, 0#24, []⟩]

/-- A frame with any one body byte changed is reported INVALID_CRC, under either CRC variant. On a healthy block
whose content begins with Encode(body) in which one body byte has been changed to a different value, READ
answers JUNK(INVALID_CRC, 2); the token is cleared and nothing else changes (R180, R86; derived). -/
def Obligations.BodyTamperDetected : Prop :=
  ∀ (s : State) (body frame rest : List Byte) (i : Nat) (old new : Byte), s.Healthy →
    encodeFrame s.cfg.crcVariant body = some frame → frame.length ≤ s.cfg.capacity →
    body[i]? = some old → new ≠ old → s.content = some (frame.set (4 + i) new ++ rest) →
    exec .read s = .next
      { s with
        tokValid := false
        tokBodyLen := 0#16
        outbox := s.outbox ++ [⟨.junk, .junk .invalidCrc, 2#24, []⟩] }

/-- BODY answers the descriptors of the validated body, whose cells hold it, and keeps the token. From a healthy
state that satisfies Inv with a valid token, BODY answers the descriptors of subrange(4, 4 + TOK_BODY_LEN) as
four extra words, changes nothing else, and reading the cells of the two descriptors gives the bytes 4 .. 3 +
TOK_BODY_LEN of the content (R191, R96; derived). -/
def Obligations.BodyNamesValidatedBody : Prop :=
  ∀ (s : State) (content : List Byte), s.Inv → s.Healthy → s.tokValid = true → s.content = some content →
    ∃ p1 p2 : Slice, (p1, p2) = s.subrange 4 (4 + s.tokBodyLen.toNat) ∧
      exec .body s = .next
        { s with
          outbox := s.outbox ++
            [⟨.ok, .none, 0#24,
              [BitVec.ofNat 24 p1.start, BitVec.ofNat 24 p1.len, BitVec.ofNat 24 p2.start, BitVec.ofNat 24 p2.len]⟩] } ∧
      s.store.readAll (p1.cells ++ p2.cells) = some ((content.drop 4).take s.tokBodyLen.toNat)

/-- BODY with a valid token answers the descriptors of the body and writes nothing; without one it raises
STALE_TOKEN. On a healthy block with a valid token, whatever else the state holds, BODY gives the same state
with one OK response that carries the two descriptors of subrange(4, 4 + TOK_BODY_LEN); without a valid token it
records STALE_TOKEN and opcode 0x000009, answers FAULTED and changes no other state (R191, R96, R255; derived). -/
def Obligations.BodyAnswersSubrange : Prop :=
  ∀ s : State, s.Healthy →
    (s.tokValid = true →
      exec .body s = .next
        { s with
          outbox := s.outbox ++
            [⟨.ok, .none, 0#24,
              [BitVec.ofNat 24 (s.subrange 4 (4 + s.tokBodyLen.toNat)).1.start,
                BitVec.ofNat 24 (s.subrange 4 (4 + s.tokBodyLen.toNat)).1.len,
                BitVec.ofNat 24 (s.subrange 4 (4 + s.tokBodyLen.toNat)).2.start,
                BitVec.ofNat 24 (s.subrange 4 (4 + s.tokBodyLen.toNat)).2.len]⟩] }) ∧
    (s.tokValid = false →
      exec .body s = .next
        { s with
          faultCause := .staleToken
          faultInfo := 0x000009#24
          outbox := s.outbox ++ [⟨.faulted, .cause .staleToken, 0x000009#24, []⟩] })

/-- CONV answers the frame size and spends the token. On a healthy block with a valid token CONV answers
TOK_BODY_LEN + 8, clears the token, and changes nothing else: the buffer is unchanged. Without a valid token it
raises STALE_TOKEN with opcode 0xA (R192; stated). -/
def Obligations.ConvSpendsToken : Prop :=
  ∀ s : State, s.Healthy →
    (s.tokValid = true →
      exec .conv s = .next
        { s with
          tokValid := false
          tokBodyLen := 0#16
          outbox := s.outbox ++ [⟨.ok, .none, BitVec.ofNat 24 (s.tokBodyLen.toNat + 8), []⟩] }) ∧
    (s.tokValid = false →
      exec .conv s = .next
        { s with
          faultCause := .staleToken
          faultInfo := 0x00000A#24
          outbox := s.outbox ++ [⟨.faulted, .cause .staleToken, 0x00000A#24, []⟩] })

/-- No command but READ, CONV, FILL and CONSUME changes the token. If a command other than READ, CONV, FILL and
CONSUME gives a next state, TOK_VALID and TOK_BODY_LEN are unchanged (R194, R25, R31; derived). -/
def Obligations.OtherCommandsKeepToken : Prop :=
  ∀ (i : Instr) (s t : State), i ≠ .read → i ≠ .conv → (∀ p, i ≠ .fill p) → (∀ n, i ≠ .consume n) →
    exec i s = .next t → t.tokValid = s.tokValid ∧ t.tokBodyLen = s.tokBodyLen

/-- CRCI loads INIT into the accumulator; without the CRC unit it is illegal. On a healthy block with CRC_UNIT =
PRESENT, CRCI sets CRC_ACC to INIT(CRC_VARIANT), answers OK, and changes nothing else; with CRC_UNIT = ABSENT it
raises ILLEGAL_COMMAND with 0xB0 (R219; stated). -/
def Obligations.CrciLoadsInit : Prop :=
  ∀ s : State, s.Healthy →
    (s.cfg.crcUnit = .present →
      exec .crci s = .next
        { s with
          crcAcc := if s.cfg.crcVariant = .arc then 0x0000#16 else 0xFFFF#16
          outbox := s.outbox ++ [⟨.ok, .none, 0#24, []⟩] }) ∧
    (s.cfg.crcUnit = .absent →
      exec .crci s = .next
        { s with
          faultCause := .illegalCommand
          faultInfo := 0x0000B0#24
          outbox := s.outbox ++ [⟨.faulted, .cause .illegalCommand, 0x0000B0#24, []⟩] })

/-- CRCU folds its payload into the accumulator; without the CRC unit it is illegal. On a healthy block with
CRC_UNIT = PRESENT, CRCU folds the payload bytes in order into CRC_ACC with the update of the configured
variant, answers OK, and changes nothing else; with CRC_UNIT = ABSENT it raises ILLEGAL_COMMAND with 0xC0 and
folds nothing (R220; stated). -/
def Obligations.CrcuFoldsPayload : Prop :=
  ∀ (s : State) (payload : List Byte), s.Healthy →
    (s.cfg.crcUnit = .present →
      exec (.crcu payload) s = .next
        { s with
          crcAcc := payload.foldl (if s.cfg.crcVariant = .arc then arcUpdate else ibmUpdate) s.crcAcc
          outbox := s.outbox ++ [⟨.ok, .none, 0#24, []⟩] }) ∧
    (s.cfg.crcUnit = .absent →
      exec (.crcu payload) s = .next
        { s with
          faultCause := .illegalCommand
          faultInfo := 0x0000C0#24
          outbox := s.outbox ++ [⟨.faulted, .cause .illegalCommand, 0x0000C0#24, []⟩] })

/-- CRCR answers the accumulator; without the CRC unit it is illegal. On a healthy block with CRC_UNIT = PRESENT,
CRCR answers CRC_ACC, zero-extended, and changes nothing else; with CRC_UNIT = ABSENT it raises ILLEGAL_COMMAND
with 0xD0 (R221; stated). -/
def Obligations.CrcrAnswersAccumulator : Prop :=
  ∀ s : State, s.Healthy →
    (s.cfg.crcUnit = .present →
      exec .crcr s = .next { s with outbox := s.outbox ++ [⟨.ok, .none, s.crcAcc.zeroExtend 24, []⟩] }) ∧
    (s.cfg.crcUnit = .absent →
      exec .crcr s = .next
        { s with
          faultCause := .illegalCommand
          faultInfo := 0x0000D0#24
          outbox := s.outbox ++ [⟨.faulted, .cause .illegalCommand, 0x0000D0#24, []⟩] })

/-- CRC over split input equals CRC over the concatenation, as a function and through CRCU. Folding y from the
accumulator that folding x left is folding x ++ y, for both variants, so crc16 (x ++ y) folds y from crc16 x;
and on a healthy block with the CRC unit, CRCU x then CRCU y leaves the same accumulator as CRCU (x ++ y), and
no other state of the block differs (R217, R216; derived). -/
def Obligations.CrcSplitInvariance : Prop :=
  (∀ (v : CrcVariant) (x y : List Byte), crc16 v (x ++ y) = crcFold v (crc16 v x) y) ∧
    ∀ (s : State) (x y : List Byte), s.Healthy → s.cfg.crcUnit = .present →
      ∃ t u, execAll [.crcu x, .crcu y] s = .next t ∧ exec (.crcu (x ++ y)) s = .next u ∧
        t = { u with outbox := t.outbox }

/-- Both byte-parallel forms of the ARC update equal the bit-serial one. For every 16-bit accumulator and every
byte, the XOR network and the parity form give what the bit-serial arc_update gives; column j of the network is
arc_update(0, 2^j). The spec marks R213 as derived from its rule R212 (R213; derived). -/
def Obligations.ArcParallelFormsAgree : Prop :=
  (∀ (acc : U16) (b : Byte), arcNetwork acc b = arcUpdate acc b ∧ arcParityForm acc b = arcUpdate acc b) ∧
    arcColumns = (List.range 8).map fun j => arcUpdate 0#16 (BitVec.ofNat 8 (2 ^ j))

/-- Both byte-parallel forms of the IBM-3740 update equal the bit-serial one. For every 16-bit accumulator and every
byte, the XOR network and the shift form give what the bit-serial ibm_update gives; column j of the network is
ibm_update(0, 2^j). The spec marks R215 as derived from its rule R214 (R215; derived). -/
def Obligations.IbmParallelFormsAgree : Prop :=
  (∀ (acc : U16) (b : Byte), ibmNetwork acc b = ibmUpdate acc b ∧ ibmShiftForm acc b = ibmUpdate acc b) ∧
    ibmColumns = (List.range 8).map fun j => ibmUpdate 0#16 (BitVec.ofNat 8 (2 ^ j))

/-- The byte tables of both variants give the update for every accumulator and byte. Entry x of TA is arc_update(0,
x) and entry x of TI is ibm_update(0, x) for all 256 bytes, and the update through each table equals the bit-
serial one for every accumulator and byte. The spec marks R223 and R224 as derived from its rules R212 and R214
(R223, R224; derived). -/
def Obligations.ByteTablesAgree : Prop :=
  (∀ x : Byte, arcTable[x.toNat]? = some (arcUpdate 0#16 x) ∧ ibmTable[x.toNat]? = some (ibmUpdate 0#16 x)) ∧
    ∀ (acc : U16) (b : Byte), arcTableUpdate acc b = arcUpdate acc b ∧ ibmTableUpdate acc b = ibmUpdate acc b

/-- STAT answers the status word, its bits as the rule gives them, and writes nothing. On a healthy block STAT gives
the same state with one OK response whose bits 0 to 5 are LEN = 0, LEN = N, TOK_VALID, LAYOUT = CONTIGUOUS,
CRC_VARIANT = IBM_3740 and CRC_UNIT = PRESENT and whose bits 23:6 are 0 (R240, R29; stated). -/
def Obligations.StatAnswersStatus : Prop :=
  ∀ s : State, s.Healthy →
    ∃ v : Count, exec .stat s = .next { s with outbox := s.outbox ++ [⟨.ok, .none, v, []⟩] } ∧
      v.getLsbD 0 = decide (s.len.toNat = 0) ∧ v.getLsbD 1 = decide (s.len.toNat = s.cfg.capacity) ∧
      v.getLsbD 2 = s.tokValid ∧ v.getLsbD 3 = decide (s.cfg.layout = .contiguous) ∧
      v.getLsbD 4 = decide (s.cfg.crcVariant = .ibm3740) ∧ v.getLsbD 5 = decide (s.cfg.crcUnit = .present) ∧
      ∀ i, 6 ≤ i → v.getLsbD i = false

/-- Blocks that differ in LAYOUT alone answer the same but for descriptors, RDB and STAT bit 3, and stay matched.
From two states that satisfy Inv and match in N, CRC configuration, content, LEN, token, fault state and
accumulator, every command gives a next state in both; the two match again; both add one response with the same
code and kind; the responses are equal for every command but DATA, BODY, RDB and STAT, and for every command
that faults; those to DATA and BODY differ at most in the descriptors, which are as many and cover as many
bytes; and STAT differs at most in its LAYOUT bit (R129, R34; derived). -/
def Obligations.LayoutIndependence : Prop :=
  ∀ (s u : State) (i : Instr), s.Inv → u.Inv → LayoutMatch s u →
    ∃ s' u' r q, exec i s = .next s' ∧ exec i u = .next u' ∧ LayoutMatch s' u' ∧
      s'.outbox = s.outbox ++ [r] ∧ u'.outbox = u.outbox ++ [q] ∧ r.rcode = q.rcode ∧ r.kind = q.kind ∧
      (i ≠ .data → i ≠ .body → (∀ a, i ≠ .rdb a) → i ≠ .stat → r = q) ∧
      (r.rcode = .faulted → r = q) ∧
      (i = .data ∨ i = .body →
        r.value = q.value ∧ r.extra.length = q.extra.length ∧
          ∀ st1 len1 st2 len2 st1' len1' st2' len2', r.extra = [st1, len1, st2, len2] →
            q.extra = [st1', len1', st2', len2'] → len1 + len2 = len1' + len2') ∧
      (i = .stat → r.extra = q.extra ∧ ∀ k, k ≠ 3 → r.value.getLsbD k = q.value.getLsbD k)

/-- At every step the block is faulted exactly when a response of the current run was FAULTED. If FAULT_CAUSE is
nonzero exactly where some response given since the last reset was FAULTED, and a step gives a next state, the
same holds of that state. (Where the responses are kept is the model's own, log 2.) (R292, R251, R257, R260;
derived). -/
def Obligations.StepKeepsFaultShown : Prop :=
  ∀ s t : State, s.FaultShown → step s = .next t → t.FaultShown

/-- A run after a reset answers its transactions in turn, and ends normally or faulted as they were answered. From
any state whose inputs are a reset and then presentable transactions, with nothing or another reset behind them:
one step for the reset and one for each transaction give a state in which the run has ended, with no input of
the run left and one response for each transaction, given in turn; it ended normally exactly where no response
was FAULTED, faulted exactly where one was, and if faulted FAULT_CAUSE is nonzero. (Inputs and responses stand
in State, log 2.) (R292; stated). -/
def Obligations.RunEndsAnswered : Prop :=
  ∀ (s : State) (run : List Transaction) (rest : List HostInput),
    s.inbox = .reset :: (run.map .transaction ++ rest) → rest = [] ∨ rest.head? = some .reset →
    (∀ t ∈ run, t.payload.length = payloadLength t.cmd) →
    ∃ u, steps (run.length + 1) s = .next u ∧ u.inbox = rest ∧ u.runEnded = true ∧
      u.outbox.length = run.length ∧
      (∀ k, k ≤ run.length → ∃ w, steps (k + 1) s = .next w ∧ w.outbox = u.outbox.take k) ∧
      (u.endedNormally = true ↔ ∀ r ∈ u.outbox, r.rcode ≠ .faulted) ∧
      (u.endedFaulted = true ↔ ∃ r ∈ u.outbox, r.rcode = .faulted) ∧
      (u.endedFaulted = true → u.faultCause ≠ .none)
end

