-- ==== Sys2Proof/Laws/Memory.lean ====
section
/-! SUPPORT. The laws of the store: what each operation makes each cell read as, and that each keeps the canonical
form (spec/20_memory.md R51, R63). -/

namespace Sys2Proof.Machine

@[simp] theorem Memory.read_nil (a : Nat) : Memory.read [] a = none := rfl

theorem Memory.read_cons (k : Nat) (v : Byte) (m : Memory) (a : Nat) :
    Memory.read ((k, v) :: m) a = if k = a then some v else Memory.read m a := rfl

/-- `wf` is the sortedness of the addresses. -/
theorem Memory.wf_iff_pairwise (m : Memory) : m.wf = true ↔ m.Pairwise fun c d => c.1 < d.1 := by
  induction m with
  | nil => simp [Memory.wf]
  | cons c m ih =>
    cases m with
    | nil => simp [Memory.wf]
    | cons d m =>
      simp only [Memory.wf, Bool.and_eq_true, decide_eq_true_eq, ih]
      constructor
      · rintro ⟨hcd, hp⟩
        refine List.pairwise_cons.2 ⟨fun e he => ?_, hp⟩
        rcases List.mem_cons.1 he with rfl | he
        · exact hcd
        · exact hcd.trans ((List.pairwise_cons.1 hp).1 e he)
      · intro h
        exact ⟨(List.pairwise_cons.1 h).1 d (by simp), (List.pairwise_cons.1 h).2⟩

/-- The tail of a canonical store is canonical, and its addresses lie above the first. -/
theorem Memory.wf_cons (c : Host.Cell) (m : Memory) :
    Memory.wf (c :: m) = true ↔ (∀ d ∈ m, c.1 < d.1) ∧ m.wf = true := by
  rw [Memory.wf_iff_pairwise, Memory.wf_iff_pairwise, List.pairwise_cons]

/-- A cell below every listed address holds no specified value. -/
theorem Memory.read_below (m : Memory) (a : Nat) (h : ∀ d ∈ m, a < d.1) : m.read a = none := by
  induction m with
  | nil => rfl
  | cons c m ih =>
    obtain ⟨k, v⟩ := c
    have hk : a < k := h (k, v) (by simp)
    rw [Memory.read_cons, if_neg (by omega)]
    exact ih fun d hd => h d (by simp [hd])

/-- In a canonical store a cell reads as `v` exactly where it is listed with `v`. -/
theorem Memory.read_eq_some_iff (m : Memory) (hm : m.wf = true) (a : Nat) (v : Byte) :
    m.read a = some v ↔ (a, v) ∈ m := by
  induction m with
  | nil => simp
  | cons c m ih =>
    obtain ⟨k, w⟩ := c
    obtain ⟨hlt, hm'⟩ := (Memory.wf_cons _ _).1 hm
    rw [Memory.read_cons]
    by_cases hk : k = a
    · subst hk
      have hnot : (k, v) ∉ m := fun hmem => by simpa using hlt _ hmem
      simp [hnot, eq_comm]
    · have : (a, v) ≠ (k, w) := fun h => hk (by simpa using (congrArg Prod.fst h).symm)
      simp [hk, ih hm', this]

/-! ### write -/

theorem Memory.mem_write (m : Memory) (a : Nat) (b : Byte) (c : Host.Cell) (h : c ∈ m.write a b) :
    c = (a, b) ∨ c ∈ m := by
  induction m with
  | nil => simpa [Memory.write] using h
  | cons d m ih =>
    obtain ⟨k, v⟩ := d
    simp only [Memory.write] at h
    split at h
    · simpa using h
    · split at h
      · rcases List.mem_cons.1 h with rfl | h
        · exact .inl rfl
        · exact .inr (by simp [h])
      · rcases List.mem_cons.1 h with rfl | h
        · exact .inr (by simp)
        · exact (ih h).imp_right fun hc => by simp [hc]

/-- A write keeps the canonical form. -/
theorem Memory.write_wf (m : Memory) (a : Nat) (b : Byte) (hm : m.wf = true) : (m.write a b).wf = true := by
  induction m with
  | nil => rfl
  | cons d m ih =>
    obtain ⟨k, v⟩ := d
    obtain ⟨hlt, hm'⟩ := (Memory.wf_cons _ _).1 hm
    simp only [Memory.write]
    split
    · rename_i hak
      refine (Memory.wf_cons _ _).2 ⟨fun e he => ?_, hm⟩
      rcases List.mem_cons.1 he with rfl | he
      · exact hak
      · exact hak.trans (hlt e he)
    · split
      · rename_i hak
        subst hak
        exact (Memory.wf_cons _ _).2 ⟨hlt, hm'⟩
      · rename_i h1 h2
        refine (Memory.wf_cons _ _).2 ⟨fun e he => ?_, ih hm'⟩
        rcases Memory.mem_write m a b e he with rfl | he
        · show k < a
          omega
        · exact hlt e he

/-- A write is read back at its cell and leaves every other cell alone. -/
theorem Memory.read_write (m : Memory) (a : Nat) (b : Byte) (x : Nat) :
    (m.write a b).read x = if x = a then some b else m.read x := by
  induction m with
  | nil => simp [Memory.write, Memory.read, eq_comm]
  | cons d m ih =>
    obtain ⟨k, v⟩ := d
    simp only [Memory.write]
    split
    · simp [Memory.read_cons, eq_comm]
    · split
      · rename_i hak
        subst hak
        by_cases hx : x = a
        · simp [Memory.read_cons, hx]
        · have : a ≠ x := fun h => hx h.symm
          simp [Memory.read_cons, hx, this]
      · rename_i h1 h2
        by_cases hk : k = x
        · subst hk
          have : ¬ k = a := fun h => h2 h.symm
          simp [Memory.read_cons, this]
        · simp [Memory.read_cons, hk, ih]

/-! ### writeRun, the loop of FILL -/

/-- The loop of FILL keeps the canonical form. -/
theorem Memory.writeRun_wf (n : Nat) (m : Memory) (start : Nat) (bytes : List Byte) (hm : m.wf = true) :
    (Memory.writeRun n m start bytes).wf = true := by
  induction bytes generalizing m start with
  | nil => exact hm
  | cons b rest ih => exact ih _ _ (Memory.write_wf _ _ _ hm)

/-- The loop of FILL leaves every cell alone that is none of its targets. -/
theorem Memory.read_writeRun_other (n : Nat) (m : Memory) (start : Nat) (bytes : List Byte) (x : Nat)
    (h : ∀ j, j < bytes.length → x ≠ (start + j) % n) :
    (Memory.writeRun n m start bytes).read x = m.read x := by
  induction bytes generalizing m start with
  | nil => rfl
  | cons b rest ih =>
    rw [Memory.writeRun, ih, Memory.read_write, if_neg (by simpa using h 0 (by simp))]
    intro j hj
    have := h (j + 1) (by simpa using hj)
    rwa [show start + 1 + j = start + (j + 1) by omega]

/-- The loop of FILL writes byte `j` to cell `(start + j) mod n`, for at most `n` bytes. -/
theorem Memory.read_writeRun_target (n : Nat) (m : Memory) (start : Nat) (bytes : List Byte) (j : Nat)
    (hn : bytes.length ≤ n) (hj : j < bytes.length) :
    (Memory.writeRun n m start bytes).read ((start + j) % n) = bytes[j]? := by
  induction bytes generalizing m start j with
  | nil => simp at hj
  | cons b rest ih =>
    simp only [List.length_cons] at hn hj
    cases j with
    | zero =>
      rw [Memory.writeRun, Memory.read_writeRun_other]
      · simp [Memory.read_write]
      · intro i hi heq
        have hi' : i + 1 < n := by omega
        have : start % n = (start + (i + 1)) % n := by simpa [Nat.add_assoc, Nat.add_comm 1 i] using heq
        have hmod : (i + 1) % n = 0 := by
          have h1 : (start + 0) ≡ (start + (i + 1)) [MOD n] := by simpa [Nat.ModEq] using this
          have h2 : 0 ≡ i + 1 [MOD n] := Nat.ModEq.add_left_cancel' start h1
          simpa [Nat.ModEq] using h2.symm
        rw [Nat.mod_eq_of_lt hi'] at hmod
        omega
    | succ j =>
      rw [Memory.writeRun, show start + (j + 1) = start + 1 + j by omega, ih _ _ _ (by omega) (by omega)]
      simp

/-! ### forget and shiftDown, the two forms of CONSUME -/

/-- Forgetting keeps the canonical form. -/
theorem Memory.forget_wf (m : Memory) (p : Nat → Bool) (hm : m.wf = true) : (m.forget p).wf = true := by
  rw [Memory.wf_iff_pairwise] at *
  exact hm.filter _

/-- A forgotten cell holds no specified value; every other cell reads as before. -/
theorem Memory.read_forget (m : Memory) (p : Nat → Bool) (x : Nat) :
    (m.forget p).read x = if p x then none else m.read x := by
  induction m with
  | nil => simp [Memory.forget]
  | cons d m ih =>
    obtain ⟨k, v⟩ := d
    have hf : Memory.forget ((k, v) :: m) p = if p k then Memory.forget m p else (k, v) :: Memory.forget m p := by
      by_cases hp : p k = true <;> simp [Memory.forget, hp]
    rw [hf]
    by_cases hp : p k = true
    · rw [if_pos hp, ih, Memory.read_cons]
      by_cases hk : k = x
      · subst hk; simp [hp]
      · simp [hk]
    · rw [if_neg hp, Memory.read_cons, Memory.read_cons, ih]
      by_cases hk : k = x
      · subst hk; simp [hp]
      · simp [hk]

/-- Where the shift of a contiguous CONSUME moves a cell. -/
theorem Memory.mem_shiftDown (m : Memory) (n len : Nat) (c : Host.Cell) :
    c ∈ m.shiftDown n len ↔
      (c ∈ m ∧ len ≤ c.1) ∨ ((c.1 + n, c.2) ∈ m ∧ c.1 + n < len) := by
  obtain ⟨a, b⟩ := c
  simp only [Memory.shiftDown, List.mem_filterMap, Prod.exists]
  constructor
  · rintro ⟨k, v, hmem, h⟩
    split at h
    · rename_i hle
      simp only [Option.some.injEq, Prod.mk.injEq] at h
      obtain ⟨rfl, rfl⟩ := h
      exact .inl ⟨hmem, hle⟩
    · split at h
      · exact absurd h (by simp)
      · rename_i h1 h2
        simp only [Option.some.injEq, Prod.mk.injEq] at h
        obtain ⟨rfl, rfl⟩ := h
        refine .inr ⟨?_, by omega⟩
        rwa [show k - n + n = k by omega]
  · rintro (⟨hmem, hle⟩ | ⟨hmem, hlt⟩)
    · exact ⟨a, b, hmem, by simp [hle]⟩
    · exact ⟨a + n, b, hmem, by simp [Nat.not_le.2 hlt]⟩

/-- The shift of a contiguous CONSUME keeps the canonical form. -/
theorem Memory.shiftDown_wf (m : Memory) (n len : Nat) (hm : m.wf = true) : (m.shiftDown n len).wf = true := by
  induction m with
  | nil => rfl
  | cons d m ih =>
    obtain ⟨k, v⟩ := d
    obtain ⟨hlt, hm'⟩ := (Memory.wf_cons _ _).1 hm
    have hcons : ∀ c : Host.Cell, (∀ e ∈ Memory.shiftDown m n len, c.1 < e.1) → Memory.wf (c :: Memory.shiftDown m n len) = true :=
      fun c hc => (Memory.wf_cons _ _).2 ⟨hc, ih hm'⟩
    have hbelow : ∀ e ∈ Memory.shiftDown m n len, (len ≤ k → k < e.1) ∧ (k < len → k - n < e.1 ∨ k < n) := by
      intro e he
      rcases (Memory.mem_shiftDown m n len e).1 he with ⟨hmem, hle⟩ | ⟨hmem, hle⟩
      · have := hlt _ hmem
        simp only at this
        omega
      · have := hlt _ hmem
        simp only at this
        omega
    by_cases h1 : len ≤ k
    · have : Memory.shiftDown ((k, v) :: m) n len = (k, v) :: Memory.shiftDown m n len := by
        simp [Memory.shiftDown, h1]
      rw [this]
      exact hcons _ fun e he => (hbelow e he).1 h1
    · by_cases h2 : k < n
      · have : Memory.shiftDown ((k, v) :: m) n len = Memory.shiftDown m n len := by
          simp [Memory.shiftDown, h1, h2]
        rw [this]
        exact ih hm'
      · have : Memory.shiftDown ((k, v) :: m) n len = (k - n, v) :: Memory.shiftDown m n len := by
          simp [Memory.shiftDown, h1, h2]
        rw [this]
        exact hcons _ fun e he => ((hbelow e he).2 (by omega)).resolve_right h2

/-- After the shift of a contiguous CONSUME: cell `x` reads as cell `x + n` did while that lay below `len`; the cells
from `len - n` up to `len` hold no specified value; cells from `len` up read as before. -/
theorem Memory.read_shiftDown (m : Memory) (n len : Nat) (hm : m.wf = true) (x : Nat) :
    (m.shiftDown n len).read x = if x + n < len then m.read (x + n) else if x < len then none else m.read x := by
  have hs := Memory.shiftDown_wf m n len hm
  apply Option.ext
  intro v
  rw [Memory.read_eq_some_iff _ hs, Memory.mem_shiftDown]
  split
  · rename_i h
    rw [Memory.read_eq_some_iff _ hm]
    constructor
    · rintro (⟨_, h2⟩ | ⟨h1, _⟩)
      · exact absurd h2 (by simp only; omega)
      · exact h1
    · exact fun h1 => .inr ⟨h1, h⟩
  · rename_i h
    split
    · rename_i h2
      simp only [reduceCtorEq, iff_false, not_or, not_and]
      exact ⟨fun _ => by omega, fun _ => h⟩
    · rename_i h2
      rw [Memory.read_eq_some_iff _ hm]
      constructor
      · rintro (⟨h1, _⟩ | ⟨_, h3⟩)
        · exact h1
        · exact absurd h3 h
      · exact fun h1 => .inl ⟨h1, by simp only; omega⟩

/-! ### readAll -/

/-- What reading a list of cells gives: the bytes, one for each cell. -/
theorem Memory.readAll_eq_some_iff (m : Memory) (as : List Nat) (bytes : List Byte) :
    m.readAll as = some bytes ↔ as.map m.read = bytes.map some := by
  induction as generalizing bytes with
  | nil => cases bytes <;> simp [Memory.readAll]
  | cons a as ih =>
    simp only [Memory.readAll]
    cases bytes with
    | nil => split <;> simp
    | cons b bytes =>
      simp only [List.map_cons, List.cons.injEq, ← ih]
      split
      · rename_i h1 h2; simp [h1, h2]
      · rename_i h
        simp only [reduceCtorEq, false_iff, not_and]
        exact fun h1 h2 => h _ _ h1 h2

/-- Reading cells one list after another. -/
theorem Memory.readAll_append (m : Memory) (as bs : List Nat) (x y : List Byte)
    (hx : m.readAll as = some x) (hy : m.readAll bs = some y) : m.readAll (as ++ bs) = some (x ++ y) := by
  rw [Memory.readAll_eq_some_iff] at *
  simp [hx, hy]

/-- The number of bytes read is the number of cells. -/
theorem Memory.readAll_length (m : Memory) (as : List Nat) (bytes : List Byte) (h : m.readAll as = some bytes) :
    bytes.length = as.length := by
  rw [Memory.readAll_eq_some_iff] at h
  simpa using (congrArg List.length h).symm

/-- The content has `LEN` bytes (spec/20_memory.md R54). -/
theorem State.content_length (s : State) (bytes : List Byte) (h : s.content = some bytes) :
    bytes.length = s.len.toNat := by
  simpa using Memory.readAll_length _ _ _ h

end Sys2Proof.Machine
end

