-- ==== Sys2Proof/Laws/State.lean ====
section
/-! SUPPORT. What each update of the state does to each field, and that the updates which leave the buffer alone
leave every view of it alone. -/

namespace Sys2Proof.Machine

/-! ### respond -/

@[simp] theorem State.respond_cfg (s : State) (r : Response) : (s.respond r).cfg = s.cfg := rfl
@[simp] theorem State.respond_store (s : State) (r : Response) : (s.respond r).store = s.store := rfl
@[simp] theorem State.respond_head (s : State) (r : Response) : (s.respond r).head = s.head := rfl
@[simp] theorem State.respond_len (s : State) (r : Response) : (s.respond r).len = s.len := rfl
@[simp] theorem State.respond_tokValid (s : State) (r : Response) : (s.respond r).tokValid = s.tokValid := rfl
@[simp] theorem State.respond_tokBodyLen (s : State) (r : Response) : (s.respond r).tokBodyLen = s.tokBodyLen := rfl
@[simp] theorem State.respond_faultCause (s : State) (r : Response) : (s.respond r).faultCause = s.faultCause := rfl
@[simp] theorem State.respond_faultInfo (s : State) (r : Response) : (s.respond r).faultInfo = s.faultInfo := rfl
@[simp] theorem State.respond_crcAcc (s : State) (r : Response) : (s.respond r).crcAcc = s.crcAcc := rfl
@[simp] theorem State.respond_draws (s : State) (r : Response) : (s.respond r).draws = s.draws := rfl
@[simp] theorem State.respond_inbox (s : State) (r : Response) : (s.respond r).inbox = s.inbox := rfl
@[simp] theorem State.respond_outbox (s : State) (r : Response) : (s.respond r).outbox = s.outbox ++ [r] := rfl
@[simp] theorem State.respond_pastRuns (s : State) (r : Response) : (s.respond r).pastRuns = s.pastRuns := rfl

/-! ### armToken -/

@[simp] theorem State.armToken_cfg (s : State) (L : U16) : (s.armToken L).cfg = s.cfg := rfl
@[simp] theorem State.armToken_store (s : State) (L : U16) : (s.armToken L).store = s.store := rfl
@[simp] theorem State.armToken_head (s : State) (L : U16) : (s.armToken L).head = s.head := rfl
@[simp] theorem State.armToken_len (s : State) (L : U16) : (s.armToken L).len = s.len := rfl
@[simp] theorem State.armToken_tokValid (s : State) (L : U16) : (s.armToken L).tokValid = true := rfl
@[simp] theorem State.armToken_tokBodyLen (s : State) (L : U16) : (s.armToken L).tokBodyLen = L := rfl
@[simp] theorem State.armToken_faultCause (s : State) (L : U16) : (s.armToken L).faultCause = s.faultCause := rfl
@[simp] theorem State.armToken_faultInfo (s : State) (L : U16) : (s.armToken L).faultInfo = s.faultInfo := rfl
@[simp] theorem State.armToken_crcAcc (s : State) (L : U16) : (s.armToken L).crcAcc = s.crcAcc := rfl
@[simp] theorem State.armToken_draws (s : State) (L : U16) : (s.armToken L).draws = s.draws := rfl
@[simp] theorem State.armToken_inbox (s : State) (L : U16) : (s.armToken L).inbox = s.inbox := rfl
@[simp] theorem State.armToken_outbox (s : State) (L : U16) : (s.armToken L).outbox = s.outbox := rfl
@[simp] theorem State.armToken_pastRuns (s : State) (L : U16) : (s.armToken L).pastRuns = s.pastRuns := rfl

/-! ### clearToken -/

@[simp] theorem State.clearToken_cfg (s : State) : (s.clearToken).cfg = s.cfg := rfl
@[simp] theorem State.clearToken_store (s : State) : (s.clearToken).store = s.store := rfl
@[simp] theorem State.clearToken_head (s : State) : (s.clearToken).head = s.head := rfl
@[simp] theorem State.clearToken_len (s : State) : (s.clearToken).len = s.len := rfl
@[simp] theorem State.clearToken_tokValid (s : State) : (s.clearToken).tokValid = false := rfl
@[simp] theorem State.clearToken_tokBodyLen (s : State) : (s.clearToken).tokBodyLen = 0#16 := rfl
@[simp] theorem State.clearToken_faultCause (s : State) : (s.clearToken).faultCause = s.faultCause := rfl
@[simp] theorem State.clearToken_faultInfo (s : State) : (s.clearToken).faultInfo = s.faultInfo := rfl
@[simp] theorem State.clearToken_crcAcc (s : State) : (s.clearToken).crcAcc = s.crcAcc := rfl
@[simp] theorem State.clearToken_draws (s : State) : (s.clearToken).draws = s.draws := rfl
@[simp] theorem State.clearToken_inbox (s : State) : (s.clearToken).inbox = s.inbox := rfl
@[simp] theorem State.clearToken_outbox (s : State) : (s.clearToken).outbox = s.outbox := rfl
@[simp] theorem State.clearToken_pastRuns (s : State) : (s.clearToken).pastRuns = s.pastRuns := rfl

/-! ### setCrcAcc -/

@[simp] theorem State.setCrcAcc_cfg (s : State) (c : U16) : (s.setCrcAcc c).cfg = s.cfg := rfl
@[simp] theorem State.setCrcAcc_store (s : State) (c : U16) : (s.setCrcAcc c).store = s.store := rfl
@[simp] theorem State.setCrcAcc_head (s : State) (c : U16) : (s.setCrcAcc c).head = s.head := rfl
@[simp] theorem State.setCrcAcc_len (s : State) (c : U16) : (s.setCrcAcc c).len = s.len := rfl
@[simp] theorem State.setCrcAcc_tokValid (s : State) (c : U16) : (s.setCrcAcc c).tokValid = s.tokValid := rfl
@[simp] theorem State.setCrcAcc_tokBodyLen (s : State) (c : U16) : (s.setCrcAcc c).tokBodyLen = s.tokBodyLen := rfl
@[simp] theorem State.setCrcAcc_faultCause (s : State) (c : U16) : (s.setCrcAcc c).faultCause = s.faultCause := rfl
@[simp] theorem State.setCrcAcc_faultInfo (s : State) (c : U16) : (s.setCrcAcc c).faultInfo = s.faultInfo := rfl
@[simp] theorem State.setCrcAcc_crcAcc (s : State) (c : U16) : (s.setCrcAcc c).crcAcc = c := rfl
@[simp] theorem State.setCrcAcc_draws (s : State) (c : U16) : (s.setCrcAcc c).draws = s.draws := rfl
@[simp] theorem State.setCrcAcc_inbox (s : State) (c : U16) : (s.setCrcAcc c).inbox = s.inbox := rfl
@[simp] theorem State.setCrcAcc_outbox (s : State) (c : U16) : (s.setCrcAcc c).outbox = s.outbox := rfl
@[simp] theorem State.setCrcAcc_pastRuns (s : State) (c : U16) : (s.setCrcAcc c).pastRuns = s.pastRuns := rfl

/-! ### takeDraw -/

@[simp] theorem State.takeDraw_cfg (s : State) : (s.takeDraw).cfg = s.cfg := rfl
@[simp] theorem State.takeDraw_store (s : State) : (s.takeDraw).store = s.store := rfl
@[simp] theorem State.takeDraw_head (s : State) : (s.takeDraw).head = s.head := rfl
@[simp] theorem State.takeDraw_len (s : State) : (s.takeDraw).len = s.len := rfl
@[simp] theorem State.takeDraw_tokValid (s : State) : (s.takeDraw).tokValid = s.tokValid := rfl
@[simp] theorem State.takeDraw_tokBodyLen (s : State) : (s.takeDraw).tokBodyLen = s.tokBodyLen := rfl
@[simp] theorem State.takeDraw_faultCause (s : State) : (s.takeDraw).faultCause = s.faultCause := rfl
@[simp] theorem State.takeDraw_faultInfo (s : State) : (s.takeDraw).faultInfo = s.faultInfo := rfl
@[simp] theorem State.takeDraw_crcAcc (s : State) : (s.takeDraw).crcAcc = s.crcAcc := rfl
@[simp] theorem State.takeDraw_draws (s : State) : (s.takeDraw).draws = s.draws + 1 := rfl
@[simp] theorem State.takeDraw_inbox (s : State) : (s.takeDraw).inbox = s.inbox := rfl
@[simp] theorem State.takeDraw_outbox (s : State) : (s.takeDraw).outbox = s.outbox := rfl
@[simp] theorem State.takeDraw_pastRuns (s : State) : (s.takeDraw).pastRuns = s.pastRuns := rfl

/-! ### raiseFault -/

@[simp] theorem State.raiseFault_cfg (s : State) (c : FaultCause) (info : Count) : (s.raiseFault c info).cfg = s.cfg := rfl
@[simp] theorem State.raiseFault_store (s : State) (c : FaultCause) (info : Count) : (s.raiseFault c info).store = s.store := rfl
@[simp] theorem State.raiseFault_head (s : State) (c : FaultCause) (info : Count) : (s.raiseFault c info).head = s.head := rfl
@[simp] theorem State.raiseFault_len (s : State) (c : FaultCause) (info : Count) : (s.raiseFault c info).len = s.len := rfl
@[simp] theorem State.raiseFault_tokValid (s : State) (c : FaultCause) (info : Count) : (s.raiseFault c info).tokValid = s.tokValid := rfl
@[simp] theorem State.raiseFault_tokBodyLen (s : State) (c : FaultCause) (info : Count) : (s.raiseFault c info).tokBodyLen = s.tokBodyLen := rfl
@[simp] theorem State.raiseFault_faultCause (s : State) (c : FaultCause) (info : Count) : (s.raiseFault c info).faultCause = c := rfl
@[simp] theorem State.raiseFault_faultInfo (s : State) (c : FaultCause) (info : Count) : (s.raiseFault c info).faultInfo = info := rfl
@[simp] theorem State.raiseFault_crcAcc (s : State) (c : FaultCause) (info : Count) : (s.raiseFault c info).crcAcc = s.crcAcc := rfl
@[simp] theorem State.raiseFault_draws (s : State) (c : FaultCause) (info : Count) : (s.raiseFault c info).draws = s.draws := rfl
@[simp] theorem State.raiseFault_inbox (s : State) (c : FaultCause) (info : Count) : (s.raiseFault c info).inbox = s.inbox := rfl
@[simp] theorem State.raiseFault_outbox (s : State) (c : FaultCause) (info : Count) : (s.raiseFault c info).outbox = s.outbox ++ [faultedResponse c info] := rfl
@[simp] theorem State.raiseFault_pastRuns (s : State) (c : FaultCause) (info : Count) : (s.raiseFault c info).pastRuns = s.pastRuns := rfl

/-! ### answerFaulted -/

@[simp] theorem State.answerFaulted_cfg (s : State) : (s.answerFaulted).cfg = s.cfg := rfl
@[simp] theorem State.answerFaulted_store (s : State) : (s.answerFaulted).store = s.store := rfl
@[simp] theorem State.answerFaulted_head (s : State) : (s.answerFaulted).head = s.head := rfl
@[simp] theorem State.answerFaulted_len (s : State) : (s.answerFaulted).len = s.len := rfl
@[simp] theorem State.answerFaulted_tokValid (s : State) : (s.answerFaulted).tokValid = s.tokValid := rfl
@[simp] theorem State.answerFaulted_tokBodyLen (s : State) : (s.answerFaulted).tokBodyLen = s.tokBodyLen := rfl
@[simp] theorem State.answerFaulted_faultCause (s : State) : (s.answerFaulted).faultCause = s.faultCause := rfl
@[simp] theorem State.answerFaulted_faultInfo (s : State) : (s.answerFaulted).faultInfo = s.faultInfo := rfl
@[simp] theorem State.answerFaulted_crcAcc (s : State) : (s.answerFaulted).crcAcc = s.crcAcc := rfl
@[simp] theorem State.answerFaulted_draws (s : State) : (s.answerFaulted).draws = s.draws := rfl
@[simp] theorem State.answerFaulted_inbox (s : State) : (s.answerFaulted).inbox = s.inbox := rfl
@[simp] theorem State.answerFaulted_outbox (s : State) : (s.answerFaulted).outbox = s.outbox ++ [faultedResponse s.faultCause s.faultInfo] := rfl
@[simp] theorem State.answerFaulted_pastRuns (s : State) : (s.answerFaulted).pastRuns = s.pastRuns := rfl

/-! ### dequeue -/

@[simp] theorem State.dequeue_cfg (s : State) (rest : List HostInput) : (s.dequeue rest).cfg = s.cfg := rfl
@[simp] theorem State.dequeue_store (s : State) (rest : List HostInput) : (s.dequeue rest).store = s.store := rfl
@[simp] theorem State.dequeue_head (s : State) (rest : List HostInput) : (s.dequeue rest).head = s.head := rfl
@[simp] theorem State.dequeue_len (s : State) (rest : List HostInput) : (s.dequeue rest).len = s.len := rfl
@[simp] theorem State.dequeue_tokValid (s : State) (rest : List HostInput) : (s.dequeue rest).tokValid = s.tokValid := rfl
@[simp] theorem State.dequeue_tokBodyLen (s : State) (rest : List HostInput) : (s.dequeue rest).tokBodyLen = s.tokBodyLen := rfl
@[simp] theorem State.dequeue_faultCause (s : State) (rest : List HostInput) : (s.dequeue rest).faultCause = s.faultCause := rfl
@[simp] theorem State.dequeue_faultInfo (s : State) (rest : List HostInput) : (s.dequeue rest).faultInfo = s.faultInfo := rfl
@[simp] theorem State.dequeue_crcAcc (s : State) (rest : List HostInput) : (s.dequeue rest).crcAcc = s.crcAcc := rfl
@[simp] theorem State.dequeue_draws (s : State) (rest : List HostInput) : (s.dequeue rest).draws = s.draws := rfl
@[simp] theorem State.dequeue_inbox (s : State) (rest : List HostInput) : (s.dequeue rest).inbox = rest := rfl
@[simp] theorem State.dequeue_outbox (s : State) (rest : List HostInput) : (s.dequeue rest).outbox = s.outbox := rfl
@[simp] theorem State.dequeue_pastRuns (s : State) (rest : List HostInput) : (s.dequeue rest).pastRuns = s.pastRuns := rfl

/-! ### present -/

@[simp] theorem State.present_cfg (s : State) (t : Transaction) : (s.present t).cfg = s.cfg := rfl
@[simp] theorem State.present_store (s : State) (t : Transaction) : (s.present t).store = s.store := rfl
@[simp] theorem State.present_head (s : State) (t : Transaction) : (s.present t).head = s.head := rfl
@[simp] theorem State.present_len (s : State) (t : Transaction) : (s.present t).len = s.len := rfl
@[simp] theorem State.present_tokValid (s : State) (t : Transaction) : (s.present t).tokValid = s.tokValid := rfl
@[simp] theorem State.present_tokBodyLen (s : State) (t : Transaction) : (s.present t).tokBodyLen = s.tokBodyLen := rfl
@[simp] theorem State.present_faultCause (s : State) (t : Transaction) : (s.present t).faultCause = s.faultCause := rfl
@[simp] theorem State.present_faultInfo (s : State) (t : Transaction) : (s.present t).faultInfo = s.faultInfo := rfl
@[simp] theorem State.present_crcAcc (s : State) (t : Transaction) : (s.present t).crcAcc = s.crcAcc := rfl
@[simp] theorem State.present_draws (s : State) (t : Transaction) : (s.present t).draws = s.draws := rfl
@[simp] theorem State.present_inbox (s : State) (t : Transaction) : (s.present t).inbox = .transaction t :: s.inbox := rfl
@[simp] theorem State.present_outbox (s : State) (t : Transaction) : (s.present t).outbox = s.outbox := rfl
@[simp] theorem State.present_pastRuns (s : State) (t : Transaction) : (s.present t).pastRuns = s.pastRuns := rfl

/-! ### resetInput -/

@[simp] theorem State.resetInput_cfg (s : State) : (s.resetInput).cfg = s.cfg := rfl
@[simp] theorem State.resetInput_store (s : State) : (s.resetInput).store = [] := rfl
@[simp] theorem State.resetInput_head (s : State) : (s.resetInput).head = 0#24 := rfl
@[simp] theorem State.resetInput_len (s : State) : (s.resetInput).len = 0#24 := rfl
@[simp] theorem State.resetInput_tokValid (s : State) : (s.resetInput).tokValid = false := rfl
@[simp] theorem State.resetInput_tokBodyLen (s : State) : (s.resetInput).tokBodyLen = 0#16 := rfl
@[simp] theorem State.resetInput_faultCause (s : State) : (s.resetInput).faultCause = .none := rfl
@[simp] theorem State.resetInput_faultInfo (s : State) : (s.resetInput).faultInfo = 0#24 := rfl
@[simp] theorem State.resetInput_crcAcc (s : State) : (s.resetInput).crcAcc = crcInit s.cfg.crcVariant := rfl
@[simp] theorem State.resetInput_draws (s : State) : (s.resetInput).draws = s.draws := rfl
@[simp] theorem State.resetInput_inbox (s : State) : (s.resetInput).inbox = s.inbox := rfl
@[simp] theorem State.resetInput_outbox (s : State) : (s.resetInput).outbox = [] := rfl
@[simp] theorem State.resetInput_pastRuns (s : State) : (s.resetInput).pastRuns = s.pastRuns ++ [s.outbox] := rfl

/-! ### appendBytes -/

@[simp] theorem State.appendBytes_cfg (s : State) (bytes : List Byte) : (s.appendBytes bytes).cfg = s.cfg := rfl
@[simp] theorem State.appendBytes_store (s : State) (bytes : List Byte) : (s.appendBytes bytes).store = Memory.writeRun s.capacity s.store (s.head.toNat + s.len.toNat) bytes := rfl
@[simp] theorem State.appendBytes_head (s : State) (bytes : List Byte) : (s.appendBytes bytes).head = s.head := rfl
@[simp] theorem State.appendBytes_len (s : State) (bytes : List Byte) : (s.appendBytes bytes).len = BitVec.ofNat 24 (s.len.toNat + bytes.length) := rfl
@[simp] theorem State.appendBytes_tokValid (s : State) (bytes : List Byte) : (s.appendBytes bytes).tokValid = s.tokValid := rfl
@[simp] theorem State.appendBytes_tokBodyLen (s : State) (bytes : List Byte) : (s.appendBytes bytes).tokBodyLen = s.tokBodyLen := rfl
@[simp] theorem State.appendBytes_faultCause (s : State) (bytes : List Byte) : (s.appendBytes bytes).faultCause = s.faultCause := rfl
@[simp] theorem State.appendBytes_faultInfo (s : State) (bytes : List Byte) : (s.appendBytes bytes).faultInfo = s.faultInfo := rfl
@[simp] theorem State.appendBytes_crcAcc (s : State) (bytes : List Byte) : (s.appendBytes bytes).crcAcc = s.crcAcc := rfl
@[simp] theorem State.appendBytes_draws (s : State) (bytes : List Byte) : (s.appendBytes bytes).draws = s.draws := rfl
@[simp] theorem State.appendBytes_inbox (s : State) (bytes : List Byte) : (s.appendBytes bytes).inbox = s.inbox := rfl
@[simp] theorem State.appendBytes_outbox (s : State) (bytes : List Byte) : (s.appendBytes bytes).outbox = s.outbox := rfl
@[simp] theorem State.appendBytes_pastRuns (s : State) (bytes : List Byte) : (s.appendBytes bytes).pastRuns = s.pastRuns := rfl

/-! ### evict -/

@[simp] theorem State.evict_cfg (s : State) (n : Nat) : (s.evict n).cfg = s.cfg := by
  unfold State.evict; split <;> rfl
@[simp] theorem State.evict_len (s : State) (n : Nat) : (s.evict n).len = BitVec.ofNat 24 (s.len.toNat - n) := by
  unfold State.evict; split <;> rfl
@[simp] theorem State.evict_tokValid (s : State) (n : Nat) : (s.evict n).tokValid = s.tokValid := by
  unfold State.evict; split <;> rfl
@[simp] theorem State.evict_tokBodyLen (s : State) (n : Nat) : (s.evict n).tokBodyLen = s.tokBodyLen := by
  unfold State.evict; split <;> rfl
@[simp] theorem State.evict_faultCause (s : State) (n : Nat) : (s.evict n).faultCause = s.faultCause := by
  unfold State.evict; split <;> rfl
@[simp] theorem State.evict_faultInfo (s : State) (n : Nat) : (s.evict n).faultInfo = s.faultInfo := by
  unfold State.evict; split <;> rfl
@[simp] theorem State.evict_crcAcc (s : State) (n : Nat) : (s.evict n).crcAcc = s.crcAcc := by
  unfold State.evict; split <;> rfl
@[simp] theorem State.evict_draws (s : State) (n : Nat) : (s.evict n).draws = s.draws := by
  unfold State.evict; split <;> rfl
@[simp] theorem State.evict_inbox (s : State) (n : Nat) : (s.evict n).inbox = s.inbox := by
  unfold State.evict; split <;> rfl
@[simp] theorem State.evict_outbox (s : State) (n : Nat) : (s.evict n).outbox = s.outbox := by
  unfold State.evict; split <;> rfl
@[simp] theorem State.evict_pastRuns (s : State) (n : Nat) : (s.evict n).pastRuns = s.pastRuns := by
  unfold State.evict; split <;> rfl

/-- Under RING, CONSUME moves HEAD and forgets the evicted cells. -/
theorem State.evict_ring (s : State) (n : Nat) (h : s.cfg.layout = .ring) :
    (s.evict n).head = BitVec.ofNat 24 ((s.head.toNat + n) % s.capacity) ∧
      (s.evict n).store = s.store.forget fun a => decide (s.offsetOf a < n) := by
  unfold State.evict; rw [h]; exact ⟨rfl, rfl⟩

/-- Under CONTIGUOUS, CONSUME leaves HEAD and shifts the store down. -/
theorem State.evict_contiguous (s : State) (n : Nat) (h : s.cfg.layout = .contiguous) :
    (s.evict n).head = s.head ∧ (s.evict n).store = s.store.shiftDown n s.len.toNat := by
  unfold State.evict; rw [h]; exact ⟨rfl, rfl⟩

/-! ### Updates that leave the buffer alone leave its views alone -/

@[simp] theorem State.respond_capacity (s : State) (r : Response) : (s.respond r).capacity = s.capacity := rfl
@[simp] theorem State.respond_phys (s : State) (r : Response) (i : Nat) : (s.respond r).phys i = s.phys i := rfl
@[simp] theorem State.respond_offsetOf (s : State) (r : Response) (i : Nat) : (s.respond r).offsetOf i = s.offsetOf i := rfl
@[simp] theorem State.respond_occupied (s : State) (r : Response) (i : Nat) : (s.respond r).occupied i = s.occupied i := rfl
@[simp] theorem State.respond_content (s : State) (r : Response) : (s.respond r).content = s.content := rfl
@[simp] theorem State.respond_view (s : State) (r : Response) : (s.respond r).view = s.view := rfl
@[simp] theorem State.respond_readOutcome (s : State) (r : Response) : (s.respond r).readOutcome = s.readOutcome := rfl
@[simp] theorem State.respond_free (s : State) (r : Response) : (s.respond r).free = s.free := rfl
@[simp] theorem State.respond_isEmpty (s : State) (r : Response) : (s.respond r).isEmpty = s.isEmpty := rfl
@[simp] theorem State.respond_isFull (s : State) (r : Response) : (s.respond r).isFull = s.isFull := rfl

@[simp] theorem State.armToken_capacity (s : State) (L : U16) : (s.armToken L).capacity = s.capacity := rfl
@[simp] theorem State.armToken_phys (s : State) (L : U16) (i : Nat) : (s.armToken L).phys i = s.phys i := rfl
@[simp] theorem State.armToken_offsetOf (s : State) (L : U16) (i : Nat) : (s.armToken L).offsetOf i = s.offsetOf i := rfl
@[simp] theorem State.armToken_occupied (s : State) (L : U16) (i : Nat) : (s.armToken L).occupied i = s.occupied i := rfl
@[simp] theorem State.armToken_content (s : State) (L : U16) : (s.armToken L).content = s.content := rfl
@[simp] theorem State.armToken_view (s : State) (L : U16) : (s.armToken L).view = s.view := rfl
@[simp] theorem State.armToken_readOutcome (s : State) (L : U16) : (s.armToken L).readOutcome = s.readOutcome := rfl
@[simp] theorem State.armToken_free (s : State) (L : U16) : (s.armToken L).free = s.free := rfl
@[simp] theorem State.armToken_isEmpty (s : State) (L : U16) : (s.armToken L).isEmpty = s.isEmpty := rfl
@[simp] theorem State.armToken_isFull (s : State) (L : U16) : (s.armToken L).isFull = s.isFull := rfl

@[simp] theorem State.clearToken_capacity (s : State) : (s.clearToken).capacity = s.capacity := rfl
@[simp] theorem State.clearToken_phys (s : State) (i : Nat) : (s.clearToken).phys i = s.phys i := rfl
@[simp] theorem State.clearToken_offsetOf (s : State) (i : Nat) : (s.clearToken).offsetOf i = s.offsetOf i := rfl
@[simp] theorem State.clearToken_occupied (s : State) (i : Nat) : (s.clearToken).occupied i = s.occupied i := rfl
@[simp] theorem State.clearToken_content (s : State) : (s.clearToken).content = s.content := rfl
@[simp] theorem State.clearToken_view (s : State) : (s.clearToken).view = s.view := rfl
@[simp] theorem State.clearToken_readOutcome (s : State) : (s.clearToken).readOutcome = s.readOutcome := rfl
@[simp] theorem State.clearToken_free (s : State) : (s.clearToken).free = s.free := rfl
@[simp] theorem State.clearToken_isEmpty (s : State) : (s.clearToken).isEmpty = s.isEmpty := rfl
@[simp] theorem State.clearToken_isFull (s : State) : (s.clearToken).isFull = s.isFull := rfl

@[simp] theorem State.setCrcAcc_capacity (s : State) (c : U16) : (s.setCrcAcc c).capacity = s.capacity := rfl
@[simp] theorem State.setCrcAcc_phys (s : State) (c : U16) (i : Nat) : (s.setCrcAcc c).phys i = s.phys i := rfl
@[simp] theorem State.setCrcAcc_offsetOf (s : State) (c : U16) (i : Nat) : (s.setCrcAcc c).offsetOf i = s.offsetOf i := rfl
@[simp] theorem State.setCrcAcc_occupied (s : State) (c : U16) (i : Nat) : (s.setCrcAcc c).occupied i = s.occupied i := rfl
@[simp] theorem State.setCrcAcc_content (s : State) (c : U16) : (s.setCrcAcc c).content = s.content := rfl
@[simp] theorem State.setCrcAcc_view (s : State) (c : U16) : (s.setCrcAcc c).view = s.view := rfl
@[simp] theorem State.setCrcAcc_readOutcome (s : State) (c : U16) : (s.setCrcAcc c).readOutcome = s.readOutcome := rfl
@[simp] theorem State.setCrcAcc_free (s : State) (c : U16) : (s.setCrcAcc c).free = s.free := rfl
@[simp] theorem State.setCrcAcc_isEmpty (s : State) (c : U16) : (s.setCrcAcc c).isEmpty = s.isEmpty := rfl
@[simp] theorem State.setCrcAcc_isFull (s : State) (c : U16) : (s.setCrcAcc c).isFull = s.isFull := rfl

@[simp] theorem State.takeDraw_capacity (s : State) : (s.takeDraw).capacity = s.capacity := rfl
@[simp] theorem State.takeDraw_phys (s : State) (i : Nat) : (s.takeDraw).phys i = s.phys i := rfl
@[simp] theorem State.takeDraw_offsetOf (s : State) (i : Nat) : (s.takeDraw).offsetOf i = s.offsetOf i := rfl
@[simp] theorem State.takeDraw_occupied (s : State) (i : Nat) : (s.takeDraw).occupied i = s.occupied i := rfl
@[simp] theorem State.takeDraw_content (s : State) : (s.takeDraw).content = s.content := rfl
@[simp] theorem State.takeDraw_view (s : State) : (s.takeDraw).view = s.view := rfl
@[simp] theorem State.takeDraw_readOutcome (s : State) : (s.takeDraw).readOutcome = s.readOutcome := rfl
@[simp] theorem State.takeDraw_free (s : State) : (s.takeDraw).free = s.free := rfl
@[simp] theorem State.takeDraw_isEmpty (s : State) : (s.takeDraw).isEmpty = s.isEmpty := rfl
@[simp] theorem State.takeDraw_isFull (s : State) : (s.takeDraw).isFull = s.isFull := rfl

@[simp] theorem State.raiseFault_capacity (s : State) (c : FaultCause) (info : Count) : (s.raiseFault c info).capacity = s.capacity := rfl
@[simp] theorem State.raiseFault_phys (s : State) (c : FaultCause) (info : Count) (i : Nat) : (s.raiseFault c info).phys i = s.phys i := rfl
@[simp] theorem State.raiseFault_offsetOf (s : State) (c : FaultCause) (info : Count) (i : Nat) : (s.raiseFault c info).offsetOf i = s.offsetOf i := rfl
@[simp] theorem State.raiseFault_occupied (s : State) (c : FaultCause) (info : Count) (i : Nat) : (s.raiseFault c info).occupied i = s.occupied i := rfl
@[simp] theorem State.raiseFault_content (s : State) (c : FaultCause) (info : Count) : (s.raiseFault c info).content = s.content := rfl
@[simp] theorem State.raiseFault_view (s : State) (c : FaultCause) (info : Count) : (s.raiseFault c info).view = s.view := rfl
@[simp] theorem State.raiseFault_readOutcome (s : State) (c : FaultCause) (info : Count) : (s.raiseFault c info).readOutcome = s.readOutcome := rfl
@[simp] theorem State.raiseFault_free (s : State) (c : FaultCause) (info : Count) : (s.raiseFault c info).free = s.free := rfl
@[simp] theorem State.raiseFault_isEmpty (s : State) (c : FaultCause) (info : Count) : (s.raiseFault c info).isEmpty = s.isEmpty := rfl
@[simp] theorem State.raiseFault_isFull (s : State) (c : FaultCause) (info : Count) : (s.raiseFault c info).isFull = s.isFull := rfl

@[simp] theorem State.answerFaulted_capacity (s : State) : (s.answerFaulted).capacity = s.capacity := rfl
@[simp] theorem State.answerFaulted_phys (s : State) (i : Nat) : (s.answerFaulted).phys i = s.phys i := rfl
@[simp] theorem State.answerFaulted_offsetOf (s : State) (i : Nat) : (s.answerFaulted).offsetOf i = s.offsetOf i := rfl
@[simp] theorem State.answerFaulted_occupied (s : State) (i : Nat) : (s.answerFaulted).occupied i = s.occupied i := rfl
@[simp] theorem State.answerFaulted_content (s : State) : (s.answerFaulted).content = s.content := rfl
@[simp] theorem State.answerFaulted_view (s : State) : (s.answerFaulted).view = s.view := rfl
@[simp] theorem State.answerFaulted_readOutcome (s : State) : (s.answerFaulted).readOutcome = s.readOutcome := rfl
@[simp] theorem State.answerFaulted_free (s : State) : (s.answerFaulted).free = s.free := rfl
@[simp] theorem State.answerFaulted_isEmpty (s : State) : (s.answerFaulted).isEmpty = s.isEmpty := rfl
@[simp] theorem State.answerFaulted_isFull (s : State) : (s.answerFaulted).isFull = s.isFull := rfl

@[simp] theorem State.dequeue_capacity (s : State) (rest : List HostInput) : (s.dequeue rest).capacity = s.capacity := rfl
@[simp] theorem State.dequeue_phys (s : State) (rest : List HostInput) (i : Nat) : (s.dequeue rest).phys i = s.phys i := rfl
@[simp] theorem State.dequeue_offsetOf (s : State) (rest : List HostInput) (i : Nat) : (s.dequeue rest).offsetOf i = s.offsetOf i := rfl
@[simp] theorem State.dequeue_occupied (s : State) (rest : List HostInput) (i : Nat) : (s.dequeue rest).occupied i = s.occupied i := rfl
@[simp] theorem State.dequeue_content (s : State) (rest : List HostInput) : (s.dequeue rest).content = s.content := rfl
@[simp] theorem State.dequeue_view (s : State) (rest : List HostInput) : (s.dequeue rest).view = s.view := rfl
@[simp] theorem State.dequeue_readOutcome (s : State) (rest : List HostInput) : (s.dequeue rest).readOutcome = s.readOutcome := rfl
@[simp] theorem State.dequeue_free (s : State) (rest : List HostInput) : (s.dequeue rest).free = s.free := rfl
@[simp] theorem State.dequeue_isEmpty (s : State) (rest : List HostInput) : (s.dequeue rest).isEmpty = s.isEmpty := rfl
@[simp] theorem State.dequeue_isFull (s : State) (rest : List HostInput) : (s.dequeue rest).isFull = s.isFull := rfl

@[simp] theorem State.present_capacity (s : State) (t : Transaction) : (s.present t).capacity = s.capacity := rfl
@[simp] theorem State.present_phys (s : State) (t : Transaction) (i : Nat) : (s.present t).phys i = s.phys i := rfl
@[simp] theorem State.present_offsetOf (s : State) (t : Transaction) (i : Nat) : (s.present t).offsetOf i = s.offsetOf i := rfl
@[simp] theorem State.present_occupied (s : State) (t : Transaction) (i : Nat) : (s.present t).occupied i = s.occupied i := rfl
@[simp] theorem State.present_content (s : State) (t : Transaction) : (s.present t).content = s.content := rfl
@[simp] theorem State.present_view (s : State) (t : Transaction) : (s.present t).view = s.view := rfl
@[simp] theorem State.present_readOutcome (s : State) (t : Transaction) : (s.present t).readOutcome = s.readOutcome := rfl
@[simp] theorem State.present_free (s : State) (t : Transaction) : (s.present t).free = s.free := rfl
@[simp] theorem State.present_isEmpty (s : State) (t : Transaction) : (s.present t).isEmpty = s.isEmpty := rfl
@[simp] theorem State.present_isFull (s : State) (t : Transaction) : (s.present t).isFull = s.isFull := rfl

end Sys2Proof.Machine
end

