-- ==== Sys2Proof/Laws/Ops.lean ====
section
/-! SUPPORT. What the shared operations can do: the preamble, the token check, the logical placement, the content and
the two-slice view. -/

namespace Sys2Proof.Machine

/-! ### The preamble (spec/60_exceptions.md R258) -/

/-- A healthy block runs a legal command. -/
theorem preamble_healthy (top : Byte) (s : State) (command : Result) (h : s.Healthy) :
    preamble top true s command = command := by
  unfold State.Healthy at h
  simp [preamble, h]

/-- A faulted block answers FAULTED. -/
theorem preamble_faulted (top : Byte) (legal : Bool) (s : State) (command : Result) (h : s.faultCause ≠ .none) :
    preamble top legal s command = .next s.answerFaulted := by
  simp [preamble, h]

/-- A healthy block raises `ILLEGAL_COMMAND` for an illegal word. -/
theorem preamble_illegal (top : Byte) (s : State) (command : Result) (h : s.Healthy) :
    preamble top false s command = .next (s.raiseFault .illegalCommand (top.zeroExtend 24)) := by
  unfold State.Healthy at h
  simp [preamble, h]

/-- Everything the preamble can do. -/
theorem preamble_cases (top : Byte) (legal : Bool) (s : State) (command : Result) :
    (s.faultCause ≠ .none ∧ preamble top legal s command = .next s.answerFaulted) ∨
      (s.Healthy ∧ legal = true ∧ preamble top legal s command = command) ∨
      (s.Healthy ∧ legal = false ∧
        preamble top legal s command = .next (s.raiseFault .illegalCommand (top.zeroExtend 24))) := by
  by_cases h : s.faultCause = .none
  · cases legal
    · exact .inr (.inr ⟨h, rfl, preamble_illegal top s command h⟩)
    · exact .inr (.inl ⟨h, rfl, preamble_healthy top s command h⟩)
  · exact .inl ⟨h, preamble_faulted top legal s command h⟩

/-- Everything the token check can do (spec/60_exceptions.md R255). -/
theorem needToken_cases (opcode : BitVec 4) (s : State) (command : Result) :
    (s.tokValid = true ∧ needToken opcode s command = command) ∨
      (s.tokValid = false ∧
        needToken opcode s command = .next (s.raiseFault .staleToken (opcode.zeroExtend 24))) := by
  cases h : s.tokValid <;> simp [needToken, h]

/-- READ writes the token and nothing else, then answers (spec/41_parser.md R160, R171). -/
theorem updateToken_respond_eq (s : State) (out : ReadOutcome) (r : Response) :
    ∃ v L, (s.updateToken out).respond r = { s with tokValid := v, tokBodyLen := L, outbox := s.outbox ++ [r] } := by
  cases out <;> exact ⟨_, _, rfl⟩

/-! ### Runs (spec/70_reset_and_hazards.md R292) -/

/-- A step that gives a next state leaves one step fewer to go. -/
theorem steps_succ (k : Nat) (s t : State) (h : step s = .next t) : steps (k + 1) s = steps k t := by
  simp [steps, h]

/-- Where the next input is no transaction, the run has ended. -/
theorem State.runEnded_iff (s : State) : s.runEnded = true ↔ s.inbox = [] ∨ s.inbox.head? = some .reset := by
  unfold State.runEnded
  split <;> simp_all

/-- A response adds to the run's verdict its own code. -/
@[simp] theorem State.respond_runFaulted (s : State) (r : Response) :
    (s.respond r).runFaulted = (s.runFaulted || decide (r.rcode = .faulted)) := by
  simp [State.runFaulted]

/-- A response that is not FAULTED says nothing of the fault state. -/
theorem State.faultShown_respond (s : State) (r : Response) (hr : r.rcode ≠ .faulted) :
    (s.respond r).FaultShown ↔ s.FaultShown := by
  simp [State.FaultShown, hr]

/-- A raised fault is shown. -/
theorem State.faultShown_raiseFault (s : State) (c : FaultCause) (info : Count) (hc : c ≠ .none) :
    (s.raiseFault c info).FaultShown := by
  simp [State.FaultShown, State.raiseFault, faultedResponse, hc]

/-- The answer of a faulted block shows the fault. -/
theorem State.faultShown_answerFaulted (s : State) (h : s.faultCause ≠ .none) : s.answerFaulted.FaultShown := by
  simp [State.FaultShown, State.answerFaulted, faultedResponse, h]

/-- A run that has no response yet is not faulted, and neither is the block after the reset that starts it. -/
theorem State.faultShown_resetInput (s : State) : s.resetInput.FaultShown := by
  simp [State.FaultShown, State.runFaulted]

/-! ### Counts of 24 bits -/

/-- A number below 2^24 keeps its value in a 24-bit field (spec/00_scope.md R10). -/
theorem toNat_count (n : Nat) (h : n < 2 ^ 24) : (BitVec.ofNat 24 n).toNat = n := by
  rw [BitVec.toNat_ofNat, Nat.mod_eq_of_lt h]

/-- The capacity is at least the minimum frame size (spec/00_scope.md R5). -/
theorem State.capacity_ge (s : State) : 8 ≤ s.capacity := s.cfg.capacity_ge

/-- The capacity fits a 24-bit count (spec/00_scope.md R5). -/
theorem State.capacity_lt (s : State) : s.capacity < 2 ^ 24 := Nat.lt_of_le_of_lt s.cfg.capacity_le (by norm_num)

/-- FILL never wraps LEN (spec/40_buffer.md R127). -/
theorem State.len_add_accepted_lt (s : State) (k : Nat) : s.len.toNat + min k s.free < 2 ^ 24 := by
  have h1 := s.len.isLt
  have h2 := s.capacity_lt
  unfold State.free
  omega

/-! ### Logical placement (spec/20_memory.md R52, R53) -/

/-- An offset lies below the capacity. -/
theorem State.offsetOf_lt (s : State) (i : Nat) : s.offsetOf i < s.capacity :=
  Nat.mod_lt _ (by have := s.capacity_ge; omega)

/-- With HEAD in range, `phys` is one formula for both layouts below the capacity. -/
theorem State.phys_eq (s : State) (hc : s.cfg.layout = .contiguous → s.head = 0#24) (i : Nat) (hi : i < s.capacity) :
    s.phys i = (s.head.toNat + i) % s.capacity := by
  unfold State.phys
  cases hl : s.cfg.layout with
  | ring => rfl
  | contiguous => simp [hc hl, Nat.mod_eq_of_lt hi]

/-- The offset of the cell of logical byte `i` is `i`. -/
theorem State.offsetOf_add_head (s : State) (hh : s.head.toNat < s.capacity) (i : Nat) :
    s.offsetOf ((s.head.toNat + i) % s.capacity) = i % s.capacity := by
  unfold State.offsetOf
  rw [Nat.mod_eq_of_lt hh, Nat.mod_add_mod, show s.head.toNat + i + (s.capacity - s.head.toNat) = i + s.capacity by omega,
    Nat.add_mod_right]

/-- A cell below the capacity is the cell of the logical byte at its offset. -/
theorem State.head_add_offsetOf (s : State) (hh : s.head.toNat < s.capacity) (a : Nat) (ha : a < s.capacity) :
    (s.head.toNat + s.offsetOf a) % s.capacity = a := by
  unfold State.offsetOf
  rw [Nat.mod_eq_of_lt hh, Nat.add_mod_mod, show s.head.toNat + (a + (s.capacity - s.head.toNat)) = a + s.capacity by omega,
    Nat.add_mod_right, Nat.mod_eq_of_lt ha]

/-- What it is for a content to hold certain bytes: their number is LEN, and each is the byte of its cell. -/
theorem State.content_eq_some_iff (s : State) (bytes : List Byte) :
    s.content = some bytes ↔ bytes.length = s.len.toNat ∧ ∀ i, i < s.len.toNat → s.store.read (s.phys i) = bytes[i]? := by
  unfold State.content
  rw [Memory.readAll_eq_some_iff]
  constructor
  · intro h
    have hlen : bytes.length = s.len.toNat := by simpa using (congrArg List.length h).symm
    refine ⟨hlen, fun i hi => ?_⟩
    have := congrArg (fun l => l[i]?) h
    simp only [List.map_map, List.getElem?_map, List.getElem?_range hi, Option.map_some, Function.comp] at this
    rw [List.getElem?_eq_getElem (by omega)] at this ⊢
    simpa using this
  · rintro ⟨hlen, h⟩
    apply List.ext_getElem?
    intro i
    by_cases hi : i < s.len.toNat
    · simp only [List.map_map, List.getElem?_map, List.getElem?_range hi, Option.map_some, Function.comp, h i hi]
      rw [List.getElem?_eq_getElem (by omega)]
      simp
    · rw [List.getElem?_eq_none (by simpa using hi), List.getElem?_eq_none (by simpa [hlen] using hi)]

/-- In a state that satisfies the invariant every byte of the content is there. -/
theorem State.Inv.exists_content (s : State) (h : s.Inv) : ∃ c, s.content = some c := by
  have key : ∀ as : List Nat, (∀ a ∈ as, (s.store.read a).isSome = true) → ∃ c, s.store.readAll as = some c := by
    intro as
    induction as with
    | nil => exact fun _ => ⟨[], rfl⟩
    | cons a as ih =>
      intro hall
      obtain ⟨c, hc⟩ := ih fun b hb => hall b (by simp [hb])
      obtain ⟨b, hb⟩ := Option.isSome_iff_exists.1 (hall a (by simp))
      exact ⟨b :: c, by simp [Memory.readAll, hb, hc]⟩
  refine key _ fun a ha => ?_
  obtain ⟨i, hi, rfl⟩ := List.mem_map.1 ha
  have hi : i < s.len.toNat := by simpa using hi
  have hN : i < s.capacity := lt_of_lt_of_le hi h.len_le
  rw [h.store_cells, s.phys_eq h.head_contiguous i hN]
  refine ⟨Nat.mod_lt _ (by omega), ?_⟩
  simp only [State.occupied, decide_eq_true_eq]
  rw [s.offsetOf_add_head h.head_lt, Nat.mod_eq_of_lt hN]
  exact hi

/-! ### The two-slice view (spec/20_memory.md R55, R56) -/

/-- The length of a descriptor is the length asked for. -/
@[simp] theorem slice_len (start len : Nat) : (slice start len).len = len := by
  unfold slice; split <;> simp; omega

/-- The two slices have the content's length. -/
theorem State.view_lengths (s : State) : s.view.1.len + s.view.2.len = s.len.toNat := by
  simp only [State.view, slice_len]; omega

/-- The cells of a slice of length 0 are none. -/
theorem slice_cells (start len : Nat) : (slice start len).cells = List.range' start len := by
  unfold slice Slice.cells
  split
  · rfl
  · rw [show len = 0 by omega]; rfl

end Sys2Proof.Machine
end

