-- ==== Sys2Proof/Laws/PerInstr.lean ====
section
/-! SUPPORT. What holds of each command as syntax: its transaction can be presented, and its reserved field is 0
(spec/30_encoding.md R88, R89, R98). -/

namespace Sys2Proof.Laws.Presentable

/-- The encoding of a well-formed command carries as many payload bytes as its word says (R88), its `RSV` is 0
(R98 case 3), and its `OP` is its opcode (R92). -/
def Statement (i : Instr) : Prop :=
  i.wellFormed = true →
    (encode i).presentable = true ∧ rsvField (encode i).cmd = 0#4 ∧ opField (encode i).cmd = i.opcode

theorem cap : Statement .cap := by intro _; decide
theorem len : Statement .len := by intro _; decide
theorem full : Statement .full := by intro _; decide
theorem data : Statement .data := by intro _; decide
theorem read : Statement .read := by intro _; decide
theorem body : Statement .body := by intro _; decide
theorem conv : Statement .conv := by intro _; decide
theorem crci : Statement .crci := by intro _; decide
theorem crcr : Statement .crcr := by intro _; decide
theorem stat : Statement .stat := by intro _; decide

/-- The fields of a word put together from its parts. -/
theorem fields_of_commandWord (op : BitVec 4) (arg : Count) :
    opField (commandWord op arg) = op ∧ rsvField (commandWord op arg) = 0#4 ∧ argField (commandWord op arg) = arg := by
  refine ⟨?_, ?_, ?_⟩
  · apply BitVec.eq_of_getLsbD_eq
    intro i hi
    have h1 : 28 + i < 32 := by omega
    simp [opField, commandWord, hi, h1, BitVec.getLsbD_of_ge arg (28 + i) (by omega)]
  · apply BitVec.eq_of_getLsbD_eq
    intro i hi
    have h1 : 24 + i < 28 := by omega
    simp [rsvField, commandWord, hi, h1]
  · apply BitVec.eq_of_getLsbD_eq
    intro i hi
    have h1 : i < 28 := by omega
    have h2 : i < 32 := by omega
    simp [argField, commandWord, hi, h1, h2]

/-- How many payload bytes a word put together from its parts carries. -/
theorem payloadLength_of_commandWord (op : BitVec 4) (arg : Count) :
    payloadLength (commandWord op arg) = if op = 0x4#4 ∨ op = 0xC#4 then arg.toNat else 0 := by
  obtain ⟨hop, -, harg⟩ := fields_of_commandWord op arg
  rw [payloadLength, hop, harg]

theorem fill (payload : List Byte) : Statement (.fill payload) := by
  intro h
  obtain ⟨hop, hrsv, -⟩ := fields_of_commandWord 0x4#4 (BitVec.ofNat 24 payload.length)
  have hlt : payload.length < 2 ^ 24 := by simpa [Instr.wellFormed] using h
  refine ⟨?_, hrsv, hop⟩
  have hlen := payloadLength_of_commandWord 0x4#4 (BitVec.ofNat 24 payload.length)
  rw [if_pos (by decide), BitVec.toNat_ofNat, Nat.mod_eq_of_lt hlt] at hlen
  exact beq_iff_eq.2 hlen.symm

theorem crcu (payload : List Byte) : Statement (.crcu payload) := by
  intro h
  obtain ⟨hop, hrsv, -⟩ := fields_of_commandWord 0xC#4 (BitVec.ofNat 24 payload.length)
  have hlt : payload.length < 2 ^ 24 := by simpa [Instr.wellFormed] using h
  refine ⟨?_, hrsv, hop⟩
  have hlen := payloadLength_of_commandWord 0xC#4 (BitVec.ofNat 24 payload.length)
  rw [if_pos (by decide), BitVec.toNat_ofNat, Nat.mod_eq_of_lt hlt] at hlen
  exact beq_iff_eq.2 hlen.symm

theorem consume (n : Count) : Statement (.consume n) := by
  intro _
  obtain ⟨hop, hrsv, -⟩ := fields_of_commandWord 0x5#4 n
  refine ⟨?_, hrsv, hop⟩
  have hlen := payloadLength_of_commandWord 0x5#4 n
  rw [if_neg (by decide)] at hlen
  exact beq_iff_eq.2 hlen.symm

theorem rdb (i : Count) : Statement (.rdb i) := by
  intro _
  obtain ⟨hop, hrsv, -⟩ := fields_of_commandWord 0x7#4 i
  refine ⟨?_, hrsv, hop⟩
  have hlen := payloadLength_of_commandWord 0x7#4 i
  rw [if_neg (by decide)] at hlen
  exact beq_iff_eq.2 hlen.symm

end Sys2Proof.Laws.Presentable
end

