-- ==== Sys2Proof/Machine/Assembler.lean ====
section
/-! DEFINITION. The assembly syntax and the pseudo-instructions (spec/30_encoding.md R101, R102): host-side text, no
part of the block. A line is its list of characters. -/

namespace Sys2Proof.Machine

/-- The pseudo-instructions (R102). `skip v` and `ack v` carry the value `v` the host takes from an earlier response:
the last READ's JUNK value, and the value CONV returns. -/
inductive Pseudo where
  | append (bytes : List Byte)
  | evict (n : Count)
  | getBody
  | isFull
  | capacity
  | skip (v : Count)
  | ack (v : Count)
deriving DecidableEq, Repr

/-- The plain commands a pseudo-instruction expands to (R102). -/
def Pseudo.expand : Pseudo → List Instr
  | .append bytes => [.fill bytes]
  | .evict n => [.consume n]
  | .getBody => [.body]
  | .isFull => [.full]
  | .capacity => [.cap]
  | .skip v => [.consume v]
  | .ack v => [.conv, .consume v]

/-- The value of a hexadecimal digit. -/
def hexDigit (c : Char) : Option Nat :=
  if '0' ≤ c ∧ c ≤ '9' then some (c.toNat - 48)
  else if 'A' ≤ c ∧ c ≤ 'F' then some (c.toNat - 55)
  else if 'a' ≤ c ∧ c ≤ 'f' then some (c.toNat - 87)
  else none

/-- An unsigned number in a base, from the digits left to read and the value read so far. -/
def digitsValue (base : Nat) : List Char → Nat → Option Nat
  | [], acc => some acc
  | c :: rest, acc =>
    match hexDigit c with
    | some d => if d < base then digitsValue base rest (acc * base + d) else none
    | none => none

/-- An operand number, decimal or `0x` hexadecimal (R101), that fits the 24-bit `ARG` field. -/
def operandNumber (word : List Char) : Option Count :=
  let value :=
    match word with
    | '0' :: 'x' :: d :: ds => digitsValue 16 (d :: ds) 0
    | d :: ds => digitsValue 10 (d :: ds) 0
    | [] => none
  match value with
  | some n => if n < 2 ^ 24 then some (BitVec.ofNat 24 n) else none
  | none => none

/-- A byte list of hexadecimal pairs (R101). -/
def hexPairs : List (List Char) → Option (List Byte)
  | [] => some []
  | [h, l] :: rest =>
    match hexDigit h, hexDigit l, hexPairs rest with
    | some a, some b, some bytes => some (BitVec.ofNat 8 (16 * a + b) :: bytes)
    | _, _, _ => none
  | _ :: _ => none

/-- The operand of FILL and CRCU (R101): a byte list, the empty list written `-`. -/
def operandBytes : List (List Char) → Option (List Byte)
  | [] => none
  | [['-']] => some []
  | w :: ws => hexPairs (w :: ws)

/-- The words of a line up to its comment (R101), given the word being read, its characters reversed. -/
def lineWords : List Char → List Char → List (List Char)
  | [], word => if word = [] then [] else [word.reverse]
  | ';' :: _, word => if word = [] then [] else [word.reverse]
  | ' ' :: rest, word => if word = [] then lineWords rest [] else word.reverse :: lineWords rest []
  | c :: rest, word => lineWords rest (c :: word)

/-- The command of a line's words (R101), the pseudo-instructions that need no earlier response among them (R102). -/
def assembleWords : List (List Char) → Option Instr
  | [['C', 'A', 'P']] => some .cap
  | [['L', 'E', 'N']] => some .len
  | [['F', 'U', 'L', 'L']] => some .full
  | ['F', 'I', 'L', 'L'] :: operand => (operandBytes operand).map .fill
  | [['C', 'O', 'N', 'S', 'U', 'M', 'E'], n] => (operandNumber n).map .consume
  | [['D', 'A', 'T', 'A']] => some .data
  | [['R', 'D', 'B'], i] => (operandNumber i).map .rdb
  | [['R', 'E', 'A', 'D']] => some .read
  | [['B', 'O', 'D', 'Y']] => some .body
  | [['C', 'O', 'N', 'V']] => some .conv
  | [['C', 'R', 'C', 'I']] => some .crci
  | ['C', 'R', 'C', 'U'] :: operand => (operandBytes operand).map .crcu
  | [['C', 'R', 'C', 'R']] => some .crcr
  | [['S', 'T', 'A', 'T']] => some .stat
  | ['A', 'P', 'P', 'E', 'N', 'D'] :: operand => (operandBytes operand).map .fill
  | [['E', 'V', 'I', 'C', 'T'], n] => (operandNumber n).map .consume
  | [['G', 'E', 'T', '_', 'B', 'O', 'D', 'Y']] => some .body
  | [['I', 'S', '_', 'F', 'U', 'L', 'L']] => some .full
  | [['C', 'A', 'P', 'A', 'C', 'I', 'T', 'Y']] => some .cap
  | _ => none

/-- The command a line assembles to; none for an empty line, a comment, and a line that names no command (R101). -/
def assembleLine (line : List Char) : Option Instr :=
  match assembleWords (lineWords line []) with
  | some i => if i.wellFormed then some i else none
  | none => none

end Sys2Proof.Machine
end

