-- ==== Sys2Proof/Tests/Slice0.lean ====
section
/-! SUPPORT. Small tests whose expected values come from spec/95_test_vectors.md and the rules' examples, and for each
statement with hypotheses a state that meets them. -/

namespace Sys2Proof.Tests

open Sys2Proof Sys2Proof.Machine

/-! ### Helpers -/

/-- An instance of `N` bytes, else as the standard one. -/
def small (n : Nat) (h : 8 ≤ n) (h' : n ≤ 16777215) (layout : Layout := .ring) (unit : CrcUnit := .present)
    (variant : CrcVariant := .arc) : Config := ⟨n, layout, unit, variant, h, h'⟩

def ring8 : Config := small 8 (by decide) (by decide)
def ring16 : Config := small 16 (by decide) (by decide)
def flat16 : Config := small 16 (by decide) (by decide) .contiguous
def bare16 : Config := small 16 (by decide) (by decide) .ring .absent
def ibm16 : Config := small 16 (by decide) (by decide) .ring .present .ibm3740

/-- A healthy state with a content at a head position and nothing else in the store. -/
def holding (cfg : Config) (head : Nat) (bytes : List Byte) : State :=
  State.appendBytes { State.resetOf cfg with head := BitVec.ofNat 24 head } bytes

/-- The literal frame (95_test_vectors.md, section 0). -/
def lit : List Byte := [0xEB, 0x90, 0x00, 0x04, 0xDE, 0xAD, 0xBE, 0xEF, 0xE5, 0x9B, 0xC5, 0x79]

/-- The literal frame's body. -/
def litBody : List Byte := [0xDE, 0xAD, 0xBE, 0xEF]

/-- The literal frame at HEAD = 10 of a 16-byte ring: it wraps inside its body (T13). -/
def wrapped : State := holding ring16 10 lit

/-- The literal frame in the contiguous layout (T16). -/
def straight : State := holding flat16 0 lit

/-- `wrapped` after READ. -/
def armed : State := wrapped.armToken 4#16

/-- A faulted block (T29). -/
def broken : State := wrapped.raiseFault .evictOverrun 0xD#24

/-- A state whose next input is a transaction. -/
def offered (s : State) (cmd : Word) (payload : List Byte) : State := s.present ⟨cmd, payload⟩

/-- The words of the response a command gave. -/
def answer : Result → Option (List Word)
  | .next t => t.lastResponse.map Response.words
  | _ => none

/-- A field of the state a command gave. -/
def after {α : Type} (r : Result) (f : State → α) : Option α :=
  match r with
  | .next t => some (f t)
  | _ => none

/-- The invariant as a check that runs. -/
def invCheck (s : State) : Bool :=
  decide (s.len.toNat ≤ s.capacity) && decide (s.head.toNat < s.capacity) &&
    (decide (s.cfg.layout = .ring) || decide (s.head = 0#24)) &&
    (!s.tokValid || (decide (frameSize s.tokBodyLen ≤ s.len.toNat) &&
      decide (s.readOutcome = some (.frame s.tokBodyLen)))) &&
    (s.tokValid || decide (s.tokBodyLen = 0#16)) &&
    (!decide (s.faultCause = .none) || decide (s.faultInfo = 0#24)) && s.store.wf &&
    (s.store.all fun cell => decide (cell.1 < s.capacity) && s.occupied cell.1) &&
    ((List.range s.capacity).all fun a => !s.occupied a || (s.store.read a).isSome)

/-- The check is sound. -/
theorem inv_of_invCheck (s : State) (h : invCheck s = true) : s.Inv := by
  simp only [invCheck, Bool.and_eq_true, Bool.or_eq_true, Bool.not_eq_true', decide_eq_true_eq, decide_eq_false_iff_not,
    List.all_eq_true, List.mem_range] at h
  obtain ⟨⟨⟨⟨⟨⟨⟨⟨h1, h2⟩, h3⟩, h4⟩, h5⟩, h6⟩, h7⟩, h8⟩, h9⟩ := h
  refine ⟨h1, h2, ?_, ?_, ?_, ?_, ?_, h7, fun a => ⟨fun ha => ?_, fun ⟨hN, hocc⟩ => ?_⟩⟩
  · intro hc; exact h3.resolve_left (by simp [hc])
  · intro ht; exact (h4.resolve_left (by simp [ht])).1
  · intro ht; exact (h4.resolve_left (by simp [ht])).2
  · intro ht; exact h5.resolve_left (by simp [ht])
  · intro hf; exact h6.resolve_left (by simp [hf])
  · obtain ⟨b, hb⟩ := Option.isSome_iff_exists.1 ha
    exact h8 _ ((Memory.read_eq_some_iff _ h7 _ _).1 hb)
  · exact (h9 a hN).resolve_left (by simp [hocc])

theorem inv_wrapped : wrapped.Inv := inv_of_invCheck _ (by decide +kernel)
theorem inv_straight : straight.Inv := inv_of_invCheck _ (by decide +kernel)
theorem inv_armed : armed.Inv := inv_of_invCheck _ (by decide +kernel)
theorem inv_broken : broken.Inv := inv_of_invCheck _ (by decide +kernel)
theorem inv_reset : State.reset.Inv := inv_of_invCheck _ (by decide +kernel)

/-! ### WellFormed: an ill-formed term for each check -/

/-- A payload whose length is not written out, so that no proof unfolds it. -/
theorem wellFormed_of_length (n : Nat) :
    Instr.wellFormed (.fill (List.replicate n 0#8)) = decide (n < 2 ^ 24) ∧
      Instr.wellFormed (.crcu (List.replicate n 0#8)) = decide (n < 2 ^ 24) := by
  simp [Instr.wellFormed]

/-- T10: a FILL of more than 16 777 215 bytes cannot be written. -/
theorem test_fill_too_long : Instr.wellFormed (.fill (List.replicate (2 ^ 24) 0#8)) = false :=
  (wellFormed_of_length (2 ^ 24)).1

/-- T10, for CRCU. -/
theorem test_crcu_too_long : Instr.wellFormed (.crcu (List.replicate (2 ^ 24) 0#8)) = false :=
  (wellFormed_of_length (2 ^ 24)).2

/-! ### Decoding: words written out bit by bit from spec/30_encoding.md R89 and R92 -/

theorem test_decode_cap : decode ⟨0b0001_0000_000000000000000000000000#32, []⟩ = .instr .cap := by decide

theorem test_decode_len : decode ⟨0b0010_0000_000000000000000000000000#32, []⟩ = .instr .len := by decide

theorem test_decode_full : decode ⟨0b0011_0000_000000000000000000000000#32, []⟩ = .instr .full := by decide

theorem test_decode_data : decode ⟨0b0110_0000_000000000000000000000000#32, []⟩ = .instr .data := by decide

theorem test_decode_read : decode ⟨0b1000_0000_000000000000000000000000#32, []⟩ = .instr .read := by decide

theorem test_decode_body : decode ⟨0b1001_0000_000000000000000000000000#32, []⟩ = .instr .body := by decide

theorem test_decode_conv : decode ⟨0b1010_0000_000000000000000000000000#32, []⟩ = .instr .conv := by decide

theorem test_decode_crci : decode ⟨0b1011_0000_000000000000000000000000#32, []⟩ = .instr .crci := by decide

theorem test_decode_crcr : decode ⟨0b1101_0000_000000000000000000000000#32, []⟩ = .instr .crcr := by decide

theorem test_decode_stat : decode ⟨0b1110_0000_000000000000000000000000#32, []⟩ = .instr .stat := by decide

theorem test_decode_fill :
    decode ⟨0b0100_0000_000000000000000000000010#32, [0x18#8, 0x19#8]⟩ = .instr (.fill [0x18#8, 0x19#8]) := by decide

theorem test_decode_consume :
    decode ⟨0b0101_0000_000000000000000000001100#32, []⟩ = .instr (.consume 12#24) := by decide

theorem test_decode_rdb :
    decode ⟨0b0111_0000_000000000000000000001110#32, []⟩ = .instr (.rdb 14#24) := by decide

theorem test_decode_crcu :
    decode ⟨0b1100_0000_000000000000000000000001#32, [0xAA#8]⟩ = .instr (.crcu [0xAA#8]) := by decide

/-- T11. -/
theorem test_decode_illegal :
    [0x00000000#32, 0xFFFFFFFF#32, 0x11000000#32, 0x20000005#32, 0x84000000#32, 0xE0800000#32].map (fun w => decode ⟨w, []⟩) = [.illegal 0x00#8, .illegal 0xFF#8, .illegal 0x11#8, .illegal 0x20#8, .illegal 0x84#8, .illegal 0xE0#8] := by decide

theorem test_table_word :
    decodeTableWord 32 0x5000000C = some (.consume 12#24) ∧ decodeTableWord 32 0x40000002 = some (.fill [0#8, 0#8]) ∧ decodeTableWord 32 0xF0000000 = none := by decide

/-- STAT as the first transaction after reset (P1, line 1). -/
theorem test_fetch_word :
    after (step (State.reset.withFetchWord 32 0xE0000000)) (fun t => t.lastResponse.map Response.header) = some (some 0x00000021#32) := by decide +kernel

/-! ### Commands -/

/-- T12. -/
theorem test_cap : answer (exec .cap (State.resetOf ring16)) = some [0x00000010#32] := by decide +kernel

/-- R121's example. -/
theorem test_len :
    answer (exec .len (holding ring16 0 [0xA1#8, 0xA2#8, 0xA3#8])) = some [0x00000003#32] := by decide +kernel

/-- R122: a full buffer, here with HEAD = 3. -/
theorem test_full :
    answer (exec .full (holding ring8 3 (List.replicate 8 0#8))) = some [0x00000001#32] := by decide +kernel

/-- T8. -/
theorem test_fill_short :
    answer (exec (.fill [0x10, 0x11, 0x12, 0x13, 0x14, 0x15, 0x16, 0x17, 0x18, 0x19]) (State.resetOf ring8)) = some [0x00000008#32] := by decide +kernel

/-- R123: the accepted bytes wrap from cell N-1 to cell 0. -/
theorem test_fill_wraps :
    after (exec (.fill [0xA1#8, 0xA2#8, 0xA3#8]) (holding ring8 6 [0x55#8])) (fun t => (t.store, t.head, t.len)) = some ([(0, 0xA2#8), (1, 0xA3#8), (6, 0x55#8), (7, 0xA1#8)], 6#24, 4#24) := by decide +kernel

/-- T13, first row. -/
theorem test_consume_ring :
    after (exec (.consume 12#24) wrapped) (fun t => (t.head, t.len, t.content)) = some (6#24, 0#24, some []) := by decide +kernel

/-- R124: the contiguous shift moves cell 2 to cell 0; vacated cells hold no specified value (R63). -/
theorem test_consume_shifts :
    after (exec (.consume 2#24) straight) (fun t => (t.head, t.store.read 0, t.store.read 9, t.store.read 10)) = some (0#24, some 0x00#8, some 0x79#8, none) := by decide +kernel

/-- R125's example. -/
theorem test_data : answer (exec .data wrapped) = some [0#32, 10#32, 6#32, 0#32, 6#32] := by decide +kernel

/-- T13, RDB at HEAD = 10. -/
theorem test_rdb :
    [14, 15, 0, 1].map (fun i => answer (exec (.rdb (BitVec.ofNat 24 i)) wrapped)) = [some [0xDE#32], some [0xAD#32], some [0xBE#32], some [0xEF#32]] := by decide +kernel

/-- T13: evicted cells give a draw, and nothing is expected of its value. -/
theorem test_rdb_draws :
    [9, 6].map (fun i => after (exec (.rdb (BitVec.ofNat 24 i)) wrapped) State.draws) = [some 1, some 1] := by decide +kernel

/-- T13: the frame is found across the wrap. -/
theorem test_read_literal : answer (exec .read wrapped) = some [0x30000004#32] := by decide +kernel

/-- T23: a bad ETX and a bad CRC report INVALID_ETX. -/
theorem test_read_order :
    answer (exec .read (holding ring16 0 [0xEB, 0x90, 0x00, 0x04, 0xEE, 0xAD, 0xBE, 0xEF, 0xE5, 0x9B, 0xC5, 0x78])) = some [0x24000002#32] := by decide +kernel

/-- R191's example. -/
theorem test_body : answer (exec .body armed) = some [0#32, 14#32, 2#32, 0#32, 2#32] := by decide +kernel

/-- T25. -/
theorem test_body_stale : answer (exec .body State.reset) = some [0xF3000009#32] := by decide +kernel

/-- R192's example. -/
theorem test_conv : answer (exec .conv armed) = some [0x0000000C#32] := by decide +kernel

/-- T25: the second CONV finds no token. -/
theorem test_conv_twice : answer (execAll [.conv, .conv] armed) = some [0xF300000A#32] := by decide +kernel

/-- R219's example. -/
theorem test_crci :
    answer (execAll [.crci, .crcr] (State.resetOf ibm16)) = some [0x0000FFFF#32] := by decide +kernel

/-- R220's example. -/
theorem test_crcu :
    after (exec (.crcu [0xDE#8, 0xAD#8]) State.reset) State.crcAcc = some 0x1D98#16 := by decide +kernel

/-- T27. -/
theorem test_crcr :
    answer (execAll [.crcu litBody, .crcr] (State.resetOf ibm16)) = some [0x00004097#32] := by decide +kernel

/-- T11. -/
theorem test_crc_absent :
    answer (exec (.crcu [0#8, 0#8]) (State.resetOf bare16)) = some [0xF10000C0#32] := by decide +kernel

/-- T28. -/
theorem test_stat : answer (exec .stat armed) = some [0x00000024#32] := by decide +kernel

/-- T28. -/
theorem test_stat_variants :
    [ibm16, flat16, bare16].map (fun cfg => answer (exec .stat (State.resetOf cfg))) = [some [0x00000031#32], some [0x00000029#32], some [0x00000001#32]] := by decide +kernel

/-! ### The CRC function and the encoder -/

/-- R211's check values. -/
theorem test_crc_check_values :
    crc16 .arc [0x31, 0x32, 0x33, 0x34, 0x35, 0x36, 0x37, 0x38, 0x39] = 0xBB3D#16 ∧ crc16 .ibm3740 [0x31, 0x32, 0x33, 0x34, 0x35, 0x36, 0x37, 0x38, 0x39] = 0x29B1#16 := by decide +kernel

/-- T1, T2a. -/
theorem test_encode :
    encodeFrame .arc litBody = some lit ∧ encodeFrame .arc [] = some [0xEB, 0x90, 0x00, 0x00, 0x00, 0x00, 0xC5, 0x79] := by decide +kernel

/-- R87. -/
theorem test_encode_too_large (body : List Byte) (h : body.length = 65536) : encodeFrame .arc body = none := by
  simp [encodeFrame, h]

/-! ### Runs (R292) -/

/-- A faulted block whose host goes on with a reset and a second run, of STAT and CAP. -/
def secondRun : State :=
  { broken with inbox := [.reset, .transaction ⟨0xE0000000#32, []⟩, .transaction ⟨0x10000000#32, []⟩] }

/-- P4: the run up to the reset ends faulted; the run after it, here STAT and CAP, ends normally. -/
theorem test_run_after_reset :
    broken.endedFaulted = true ∧ secondRun.runEnded = true ∧ after (steps 3 secondRun) (fun t => (t.endedNormally, t.outbox.map Response.header)) = some (true, [0x00000021#32, 0x00000010#32]) := by decide +kernel

/-- A run has not ended while a transaction of it is unanswered, in the second run either. -/
theorem test_run_unanswered :
    after (steps 2 secondRun) (fun t => (t.runEnded, t.endedNormally, t.endedFaulted)) = some (false, false, false) := by decide +kernel

/-! ### Assembly (R101, R102) -/

/-- R101's byte list and comment. -/
theorem test_assemble_fill :
    assembleLine ['F','I','L','L',' ','E','B',' ','9','0',' ',';',' ','x'] = some (.fill [0xEB#8, 0x90#8]) := by decide +kernel

/-- R101: a hexadecimal operand; an empty list. -/
theorem test_assemble_number :
    assembleLine ['R','D','B',' ','0','x','1','0'] = some (.rdb 16#24) ∧ assembleLine ['F','I','L','L',' ','-'] = some (.fill []) := by decide +kernel

/-- R102. -/
theorem test_pseudo_ack :
    (Pseudo.ack 12#24).expand = [.conv, .consume 12#24] ∧ (Pseudo.skip 3#24).expand = [.consume 3#24] := by decide +kernel

/-! ### Witnesses: for each statement with hypotheses, a state and operands that meet them -/

/-- The longest payload among them. -/
theorem witness_DecodeInvertsEncode :
    Instr.wellFormed (.fill lit) = true ∧ Instr.wellFormed (.crcu (List.replicate (2 ^ 24 - 1) 0#8)) = true :=
  ⟨by decide, (wellFormed_of_length (2 ^ 24 - 1)).2⟩

theorem witness_DecodedCommandReencodes : decode ⟨0x4000000C#32, lit⟩ = .instr (.fill lit) := by decide

theorem witness_WordDecodesUnlessReserved :
    lit.length = payloadLength 0x4000000C#32 ∧ ([] : List Byte).length = payloadLength 0xF0000000#32 := by decide

theorem witness_IllegalWordFaults_opcode0 :
    (offered (State.resetOf ring16) 0x00000000#32 []).Healthy ∧ (offered (State.resetOf ring16) 0x00000000#32 []).inbox = [.transaction ⟨0x00000000#32, []⟩] ∧ ([] : List Byte).length = payloadLength 0x00000000#32 ∧ opField 0x00000000#32 = 0x0#4 := ⟨rfl, rfl, by decide, by decide⟩

theorem witness_IllegalWordFaults_opcodeF :
    (offered (State.resetOf ring16) 0xFFFFFFFF#32 []).Healthy ∧ (offered (State.resetOf ring16) 0xFFFFFFFF#32 []).inbox = [.transaction ⟨0xFFFFFFFF#32, []⟩] ∧ ([] : List Byte).length = payloadLength 0xFFFFFFFF#32 ∧ opField 0xFFFFFFFF#32 = 0xF#4 := ⟨rfl, rfl, by decide, by decide⟩

theorem witness_IllegalWordFaults_absent :
    (offered (State.resetOf bare16) 0xC0000002#32 [0#8, 0#8]).Healthy ∧ (offered (State.resetOf bare16) 0xC0000002#32 [0#8, 0#8]).inbox = [.transaction ⟨0xC0000002#32, [0#8, 0#8]⟩] ∧ ([0#8, 0#8] : List Byte).length = payloadLength 0xC0000002#32 ∧ opField 0xC0000002#32 ∈ [0xB#4, 0xC#4, 0xD#4] ∧ bare16.crcUnit = .absent := ⟨rfl, rfl, by decide, by decide⟩

theorem witness_IllegalWordFaults_rsv :
    (offered (State.resetOf ring16) 0x45000001#32 [7#8]).Healthy ∧ (offered (State.resetOf ring16) 0x45000001#32 [7#8]).inbox = [.transaction ⟨0x45000001#32, [7#8]⟩] ∧ ([7#8] : List Byte).length = payloadLength 0x45000001#32 ∧ rsvField 0x45000001#32 ≠ 0#4 := ⟨rfl, rfl, by decide, by decide⟩

theorem witness_IllegalWordFaults_arg :
    (offered (State.resetOf ring16) 0xE0800000#32 []).Healthy ∧ (offered (State.resetOf ring16) 0xE0800000#32 []).inbox = [.transaction ⟨0xE0800000#32, []⟩] ∧ ([] : List Byte).length = payloadLength 0xE0800000#32 ∧ opField 0xE0800000#32 ∉ [0x4#4, 0x5#4, 0x7#4, 0xC#4] ∧ argField 0xE0800000#32 ≠ 0#24 := ⟨rfl, rfl, by decide, by decide⟩

theorem witness_StepRunsDecodedCommand :
    (offered wrapped 0x80000000#32 []).inbox = [.transaction ⟨0x80000000#32, []⟩] ∧ decode ⟨0x80000000#32, []⟩ = .instr .read := ⟨rfl, by decide⟩

theorem witness_UnpresentableTransactionRefused :
    (offered wrapped 0x40000001#32 []).inbox = [.transaction ⟨0x40000001#32, []⟩] ∧ ([] : List Byte).length ≠ (if opField 0x40000001#32 = 0x4#4 ∨ opField 0x40000001#32 = 0xC#4 then (argField 0x40000001#32).toNat else 0) := ⟨rfl, by decide⟩

theorem witness_IdleBlockHoldsState : State.reset.inbox = [] := rfl

theorem witness_ResetInputResets : ({ broken with inbox := [.reset] } : State).inbox = .reset :: [] := rfl

theorem witness_ResetStateValues : ring16.crcUnit = .present := rfl

theorem witness_FaultedBlockAnswersFaulted :
    (offered broken 0x00000000#32 []).faultCause ≠ .none ∧ (offered broken 0x00000000#32 []).inbox = [.transaction ⟨0x00000000#32, []⟩] ∧ ([] : List Byte).length = payloadLength 0x00000000#32 := ⟨by decide, rfl, by decide⟩

theorem witness_OnlyResetLeavesFaultedState :
    (offered broken 0x20000000#32 []).faultCause ≠ .none ∧ (offered broken 0x20000000#32 []).inbox.head? ≠ some .reset ∧ ∃ t, step (offered broken 0x20000000#32 []) = .next t := ⟨by decide, by decide, _, rfl⟩

theorem witness_StepKeepsInvariant :
    (offered wrapped 0x5000000C#32 []).Inv ∧ ∃ t, step (offered wrapped 0x5000000C#32 []) = .next t := ⟨inv_of_invCheck _ (by decide +kernel), _, rfl⟩

theorem witness_StepKeepsConfiguration : ∃ t, step (offered wrapped 0x5000000C#32 []) = .next t := ⟨_, rfl⟩

theorem witness_TransactionAnsweredOnce :
    (offered armed 0x90000000#32 []).Inv ∧ (offered armed 0x90000000#32 []).inbox = [.transaction ⟨0x90000000#32, []⟩] ∧ ([] : List Byte).length = payloadLength 0x90000000#32 := ⟨inv_of_invCheck _ (by decide +kernel), rfl, by decide⟩

theorem witness_FaultIsPrecise :
    wrapped.Healthy ∧ ∃ t, exec (.consume 13#24) wrapped = .next t ∧ t.faultCause ≠ .none := ⟨rfl, _, rfl, by decide⟩

theorem witness_BufferQueriesAnswer : wrapped.Healthy := rfl

theorem witness_FillStoresPayload : wrapped.Healthy := rfl

theorem witness_FillAppendsToContent :
    wrapped.Inv ∧ wrapped.Healthy ∧ wrapped.content = some lit := ⟨inv_wrapped, rfl, by decide +kernel⟩

/-- The largest count that does not fault. -/
theorem witness_ConsumeRingMovesHead :
    wrapped.Healthy ∧ wrapped.cfg.layout = .ring ∧ (12#24 : Count).toNat ≤ wrapped.len.toNat := ⟨rfl, rfl, by decide +kernel⟩

theorem witness_ConsumeContiguousShifts :
    straight.Healthy ∧ straight.cfg.layout = .contiguous ∧ straight.store.wf = true ∧ (12#24 : Count).toNat ≤ straight.len.toNat := ⟨rfl, rfl, by decide +kernel, by decide +kernel⟩

theorem witness_ConsumeDropsContent :
    straight.Inv ∧ straight.Healthy ∧ straight.content = some lit ∧ (12#24 : Count).toNat ≤ straight.len.toNat := ⟨inv_straight, rfl, by decide +kernel, by decide +kernel⟩

/-- T29: the smallest count that faults. -/
theorem witness_ConsumeOverrunFaults :
    wrapped.Healthy ∧ wrapped.len.toNat < (13#24 : Count).toNat := ⟨rfl, by decide +kernel⟩

theorem witness_DataAnswersView : wrapped.Healthy := rfl

theorem witness_ViewReadsContent_ring :
    wrapped.Inv ∧ wrapped.content = some lit ∧ wrapped.cfg.layout = .ring ∧ 0 < wrapped.view.2.len := ⟨inv_wrapped, by decide +kernel, rfl, by decide +kernel⟩

theorem witness_ViewReadsContent_contiguous :
    straight.Inv ∧ straight.content = some lit ∧ straight.cfg.layout = .contiguous ∧ straight.view.2.len = 0 := ⟨inv_straight, by decide +kernel, rfl, by decide +kernel⟩

theorem witness_ViewReadsContent_empty :
    State.reset.Inv ∧ State.reset.content = some [] ∧ State.reset.view.1.len = 0 := ⟨inv_reset, rfl, by decide +kernel⟩

/-- A range split by the wrap and an empty one. -/
theorem witness_SubrangeReadsContent :
    wrapped.Inv ∧ wrapped.content = some lit ∧ 4 ≤ 8 ∧ 8 ≤ wrapped.len.toNat ∧ wrapped.subrange 4 8 = (⟨14, 2⟩, ⟨0, 2⟩) ∧ wrapped.subrange 5 5 = (⟨0, 0⟩, ⟨0, 0⟩) := ⟨inv_wrapped, by decide +kernel, by decide, by decide +kernel, by decide +kernel, by decide +kernel⟩

/-- The last byte of the content. -/
theorem witness_RdbReadsContentByte :
    wrapped.Inv ∧ wrapped.Healthy ∧ wrapped.content = some lit ∧ (5#24 : Count).toNat < wrapped.cfg.capacity ∧ wrapped.offsetOf (5#24 : Count).toNat < wrapped.len.toNat := ⟨inv_wrapped, rfl, by decide +kernel, by decide +kernel, by decide +kernel⟩

/-- The first cell past the content. -/
theorem witness_RdbOutsideContentDraws :
    wrapped.Healthy ∧ (6#24 : Count).toNat < wrapped.cfg.capacity ∧ wrapped.len.toNat ≤ wrapped.offsetOf (6#24 : Count).toNat := ⟨rfl, by decide +kernel, by decide +kernel⟩

/-- T14: the smallest index that faults. -/
theorem witness_RdbIndexRangeFaults :
    wrapped.Healthy ∧ wrapped.cfg.capacity ≤ (16#24 : Count).toNat := ⟨rfl, by decide +kernel⟩

/-- T20: 7 bytes. -/
theorem witness_ReadNeedsEightBytes :
    (holding ring16 0 (lit.take 7)).Healthy ∧ (holding ring16 0 (lit.take 7)).len.toNat < 8 := ⟨rfl, by decide +kernel⟩

/-- A content without STX (T20), its trailing EB among its bytes. -/
def noStx : List Byte := [0x11, 0x22, 0x33, 0x44, 0x55, 0x66, 0x77, 0xEB]

/-- A content whose only STX is at its last two bytes. -/
def lateStx : List Byte := [0x11, 0x22, 0x33, 0x44, 0x55, 0x66, 0xEB, 0x90]

/-- STX matches nowhere in a list that the search runs through without a match. -/
theorem no_stx_of_check (bytes : List Byte)
    (h : ((List.range bytes.length).all fun i =>
      !(bytes[i]? == some 0xEB#8 && bytes[i + 1]? == some 0x90#8)) = true) : ∀ i, ¬ StxAt bytes i := by
  intro i hi
  have hlt : i < bytes.length := by
    by_contra hge
    rw [StxAt, List.getElem?_eq_none (by omega)] at hi
    simp at hi
  have := (List.all_eq_true.1 h) i (by simpa using hlt)
  simp [StxAt] at hi
  simp [hi.1, hi.2] at this

theorem witness_ReadReportsInvalidStx_none :
    (holding ring16 12 noStx).Healthy ∧ (holding ring16 12 noStx).content = some noStx ∧ 8 ≤ (holding ring16 12 noStx).len.toNat ∧ ∀ i, ¬ StxAt noStx i := ⟨rfl, by decide +kernel, by decide +kernel, no_stx_of_check _ (by decide)⟩

/-- The last offset the search tests. -/
theorem witness_ReadReportsInvalidStx_late :
    (holding ring16 12 lateStx).Healthy ∧ (holding ring16 12 lateStx).content = some lateStx ∧ 8 ≤ (holding ring16 12 lateStx).len.toNat ∧ StxAt lateStx 6 ∧ ∀ i, i < 6 → ¬ StxAt lateStx i := ⟨rfl, by decide +kernel, by decide +kernel, ⟨rfl, rfl⟩, fun i hi h => by interval_cases i <;> simp [StxAt, lateStx] at h⟩

/-- A header that asks for one byte more than N = 16 (T7), and one that asks for exactly N. -/
def tooLong : List Byte := [0xEB, 0x90, 0x00, 0x09, 0xAA, 0xAA, 0xAA, 0xAA]
def justFits : List Byte := [0xEB, 0x90, 0x00, 0x08, 0x01, 0x02, 0x03, 0x04]

/-- The literal frame with its ETX, and with one body byte, changed (T6, T5). -/
def badEtx : List Byte := [0xEB, 0x90, 0x00, 0x04, 0xDE, 0xAD, 0xBE, 0xEF, 0xE5, 0x9B, 0xC5, 0x78]
def badCrc : List Byte := [0xEB, 0x90, 0x00, 0x04, 0xDF, 0xAD, 0xBE, 0xEF, 0xE5, 0x9B, 0xC5, 0x79]

theorem witness_ReadChecksCapacity :
    (holding ring16 3 tooLong).Healthy ∧ (holding ring16 3 tooLong).content = some tooLong ∧ 8 ≤ (holding ring16 3 tooLong).len.toNat ∧ CandidateAt0 tooLong 9 ∧ (holding ring16 3 tooLong).cfg.capacity < 9 + 8 := ⟨rfl, by decide +kernel, by decide +kernel, ⟨⟨rfl, rfl⟩, _, _, rfl, rfl, rfl⟩, by decide⟩

theorem witness_ReadWaitsForWholeFrame :
    (holding ring16 3 justFits).Healthy ∧ (holding ring16 3 justFits).content = some justFits ∧ 8 ≤ (holding ring16 3 justFits).len.toNat ∧ CandidateAt0 justFits 8 ∧ 8 + 8 ≤ (holding ring16 3 justFits).cfg.capacity ∧ (holding ring16 3 justFits).len.toNat < 8 + 8 := ⟨rfl, by decide +kernel, by decide +kernel, ⟨⟨rfl, rfl⟩, _, _, rfl, rfl, rfl⟩, by decide, by decide +kernel⟩

theorem witness_ReadChecksEtx :
    (holding ring16 3 badEtx).Healthy ∧ (holding ring16 3 badEtx).content = some badEtx ∧ 8 ≤ (holding ring16 3 badEtx).len.toNat ∧ CandidateAt0 badEtx 4 ∧ 4 + 8 ≤ (holding ring16 3 badEtx).cfg.capacity ∧ 4 + 8 ≤ (holding ring16 3 badEtx).len.toNat ∧ ¬ EtxAt badEtx (4 + 6) := ⟨rfl, by decide +kernel, by decide +kernel, ⟨⟨rfl, rfl⟩, _, _, rfl, rfl, rfl⟩, by decide, by decide +kernel, by simp [EtxAt, badEtx]⟩

theorem witness_ReadChecksCrc :
    (holding ring16 3 badCrc).Healthy ∧ (holding ring16 3 badCrc).content = some badCrc ∧ 8 ≤ (holding ring16 3 badCrc).len.toNat ∧ CandidateAt0 badCrc 4 ∧ 4 + 8 ≤ (holding ring16 3 badCrc).cfg.capacity ∧ 4 + 8 ≤ (holding ring16 3 badCrc).len.toNat ∧ EtxAt badCrc (4 + 6) ∧ Number16At badCrc (4 + 4) 0xE59B ∧ (crc16 (holding ring16 3 badCrc).cfg.crcVariant ((badCrc.drop 4).take 4)).toNat ≠ 0xE59B := ⟨rfl, by decide +kernel, by decide +kernel, ⟨⟨rfl, rfl⟩, _, _, rfl, rfl, rfl⟩, by decide, by decide +kernel, ⟨rfl, rfl⟩, ⟨_, _, rfl, rfl, rfl⟩, by decide +kernel⟩

theorem witness_ReadAcceptsFrame :
    (holding ring16 3 lit).Healthy ∧ (holding ring16 3 lit).content = some lit ∧ 8 ≤ (holding ring16 3 lit).len.toNat ∧ CandidateAt0 lit 4 ∧ 4 + 8 ≤ (holding ring16 3 lit).cfg.capacity ∧ 4 + 8 ≤ (holding ring16 3 lit).len.toNat ∧ EtxAt lit (4 + 6) ∧ Number16At lit (4 + 4) 0xE59B ∧ (crc16 (holding ring16 3 lit).cfg.crcVariant ((lit.drop 4).take 4)).toNat = 0xE59B := ⟨rfl, by decide +kernel, by decide +kernel, ⟨⟨rfl, rfl⟩, _, _, rfl, rfl, rfl⟩, by decide, by decide +kernel, ⟨rfl, rfl⟩, ⟨_, _, rfl, rfl, rfl⟩, by decide +kernel⟩

/-- Different HEAD and layout. -/
theorem witness_ReadDependsOnContentOnly :
    wrapped.Healthy ∧ straight.Healthy ∧ wrapped.content = some lit ∧ straight.content = some lit ∧ wrapped.cfg.capacity = straight.cfg.capacity ∧ wrapped.cfg.crcVariant = straight.cfg.crcVariant := ⟨rfl, rfl, by decide +kernel, by decide +kernel, rfl, rfl⟩

theorem witness_ReadSkipBounds_junk :
    (holding ring16 12 noStx).Healthy ∧ ∃ t, exec .read (holding ring16 12 noStx) = .next t ∧ t.outbox = (holding ring16 12 noStx).outbox ++ [⟨.junk, .junk .invalidStx, 7#24, []⟩] := ⟨rfl, _, rfl, by decide +kernel⟩

theorem witness_ReadSkipBounds_frame :
    wrapped.Healthy ∧ ∃ t, exec .read wrapped = .next t ∧ t.outbox = wrapped.outbox ++ [⟨.frame, .none, 4#24, []⟩] := ⟨rfl, _, rfl, by decide +kernel⟩

theorem witness_IncompleteLeavesRoom :
    (holding ring16 0 (lit.take 11)).Healthy ∧ ∃ t, exec .read (holding ring16 0 (lit.take 11)) = .next t ∧ t.outbox = (holding ring16 0 (lit.take 11)).outbox ++ [⟨.incomplete, .none, 0#24, []⟩] := ⟨rfl, _, rfl, by decide +kernel⟩

theorem witness_ResyncTerminates :
    (holding ring16 0 badCrc).Inv ∧ (holding ring16 0 badCrc).Healthy := ⟨inv_of_invCheck _ (by decide +kernel), rfl⟩

/-- T2b: the largest body that fits. -/
theorem witness_FrameRoundTrip :
    (holding ring16 10 []).Inv ∧ (holding ring16 10 []).Healthy ∧ (holding ring16 10 []).len = 0#24 ∧ [1, 2, 3, 4, 5, 6, 7, 8].length + 8 ≤ (holding ring16 10 []).cfg.capacity ∧ encodeFrame (holding ring16 10 []).cfg.crcVariant [1, 2, 3, 4, 5, 6, 7, 8] = some [0xEB, 0x90, 0x00, 0x08, 1, 2, 3, 4, 5, 6, 7, 8, 0xC4, 0xF0, 0xC5, 0x79] := ⟨inv_of_invCheck _ (by decide +kernel), rfl, by decide +kernel, by decide +kernel, by decide +kernel⟩

/-- T3a: chunks of 8, 3 and 1 bytes. -/
theorem witness_ChunkedDeliverySameFrame :
    (State.resetOf ring16).Inv ∧ (State.resetOf ring16).Healthy ∧ (State.resetOf ring16).len = 0#24 ∧ encodeFrame (State.resetOf ring16).cfg.crcVariant litBody = some lit ∧ lit.length ≤ (State.resetOf ring16).cfg.capacity ∧ (∀ i ∈ ([.fill (lit.take 8), .read, .fill [0xE5, 0x9B, 0xC5], .read] : List Instr), i = .read ∨ ∃ p, i = .fill p) ∧ [0x79#8] ≠ [] ∧ ([.fill (lit.take 8), .read, .fill [0xE5, 0x9B, 0xC5], .read] : List Instr).flatMap Instr.payload ++ [0x79#8] = lit := ⟨inv_of_invCheck _ (by decide +kernel), rfl, rfl, by decide +kernel, by decide, by simp, by simp, rfl⟩

/-- T4, with junk that ends in the first byte of STX. -/
theorem witness_JunkResynchronises :
    (holding Config.standard 0 (lit ++ [0x11, 0x22, 0xEB] ++ [0xEB, 0x90, 0x00, 0x02, 0x01, 0x02, 0x51, 0x80, 0xC5, 0x79])).Inv ∧ (holding Config.standard 0 (lit ++ [0x11, 0x22, 0xEB] ++ [0xEB, 0x90, 0x00, 0x02, 0x01, 0x02, 0x51, 0x80, 0xC5, 0x79])).Healthy ∧ encodeFrame .arc litBody = some lit ∧ encodeFrame .arc [0x01, 0x02] = some [0xEB, 0x90, 0x00, 0x02, 0x01, 0x02, 0x51, 0x80, 0xC5, 0x79] ∧ ([0x11, 0x22, 0xEB] : List Byte) ≠ [] ∧ (∀ i, ¬ StxAt [0x11, 0x22, 0xEB] i) ∧ (holding Config.standard 0 (lit ++ [0x11, 0x22, 0xEB] ++ [0xEB, 0x90, 0x00, 0x02, 0x01, 0x02, 0x51, 0x80, 0xC5, 0x79])).content = some (lit ++ [0x11, 0x22, 0xEB] ++ [0xEB, 0x90, 0x00, 0x02, 0x01, 0x02, 0x51, 0x80, 0xC5, 0x79]) := ⟨inv_of_invCheck _ (by decide +kernel), rfl, by decide +kernel, by decide +kernel, by simp, no_stx_of_check _ (by decide), by decide +kernel⟩

/-- T5. -/
theorem witness_BodyTamperDetected :
    (holding ring16 3 badCrc).Healthy ∧ encodeFrame (holding ring16 3 badCrc).cfg.crcVariant litBody = some lit ∧ lit.length ≤ (holding ring16 3 badCrc).cfg.capacity ∧ litBody[0]? = some 0xDE#8 ∧ (0xDF#8 : Byte) ≠ 0xDE#8 ∧ (holding ring16 3 badCrc).content = some (lit.set (4 + 0) 0xDF#8 ++ []) := ⟨rfl, by decide +kernel, by decide, rfl, by decide, by decide +kernel⟩

theorem witness_BodyNamesValidatedBody :
    armed.Inv ∧ armed.Healthy ∧ armed.tokValid = true ∧ armed.content = some lit := ⟨inv_armed, rfl, rfl, by decide +kernel⟩

/-- Both clauses. -/
theorem witness_BodyAnswersSubrange :
    armed.Healthy ∧ armed.tokValid = true ∧ wrapped.Healthy ∧ wrapped.tokValid = false := ⟨rfl, rfl, rfl, rfl⟩

/-- Both clauses. -/
theorem witness_ConvSpendsToken :
    armed.Healthy ∧ armed.tokValid = true ∧ wrapped.Healthy ∧ wrapped.tokValid = false := ⟨rfl, rfl, rfl, rfl⟩

theorem witness_OtherCommandsKeepToken :
    (Instr.stat ≠ .read ∧ Instr.stat ≠ .conv ∧ (∀ p, Instr.stat ≠ .fill p) ∧ ∀ n, Instr.stat ≠ .consume n) ∧ ∃ t, exec .stat armed = .next t := ⟨⟨by simp, by simp, by simp, by simp⟩, _, rfl⟩

/-- Both clauses of CrciLoadsInit, CrcuFoldsPayload and CrcrAnswersAccumulator, and CrcSplitInvariance. -/
theorem witness_CrcCommands :
    (State.resetOf ring16).Healthy ∧ (State.resetOf ring16).cfg.crcUnit = .present ∧ (State.resetOf bare16).Healthy ∧ (State.resetOf bare16).cfg.crcUnit = .absent := ⟨rfl, rfl, rfl, rfl⟩

theorem witness_StatAnswersStatus : armed.Healthy := rfl

/-- T25: a transaction that faults, on a run with no FAULTED response yet. -/
theorem witness_StepKeepsFaultShown :
    (offered State.reset 0x90000000#32 []).FaultShown ∧ broken.FaultShown ∧ ∃ t, step (offered State.reset 0x90000000#32 []) = .next t ∧ t.faultCause ≠ .none := ⟨by simp [State.FaultShown]; decide, State.faultShown_raiseFault _ _ _ (by decide), _, rfl, by decide⟩

theorem witness_RunEndsAnswered :
    secondRun.inbox = .reset :: (([⟨0xE0000000#32, []⟩, ⟨0x10000000#32, []⟩] : List Transaction).map .transaction ++ []) ∧ ∀ t ∈ ([⟨0xE0000000#32, []⟩, ⟨0x10000000#32, []⟩] : List Transaction), t.payload.length = payloadLength t.cmd := ⟨rfl, by decide⟩

/-- A run whose BODY faults, with a reset behind it. -/
theorem witness_RunEndsAnswered_faulted :
    ({ wrapped with inbox := [.reset, .transaction ⟨0x90000000#32, []⟩, .reset] } : State).inbox = .reset :: (([⟨0x90000000#32, []⟩] : List Transaction).map .transaction ++ [.reset]) ∧ ([.reset] : List HostInput).head? = some .reset ∧ (∀ t ∈ ([⟨0x90000000#32, []⟩] : List Transaction), t.payload.length = payloadLength t.cmd) ∧ after (steps 2 { wrapped with inbox := [.reset, .transaction ⟨0x90000000#32, []⟩, .reset] }) State.endedFaulted = some true := ⟨rfl, rfl, by decide, by decide +kernel⟩

theorem witness_LayoutIndependence :
    armed.Inv ∧ (straight.armToken 4#16).Inv ∧ LayoutMatch armed (straight.armToken 4#16) := ⟨inv_armed, inv_of_invCheck _ (by decide +kernel), ⟨rfl, rfl, rfl, by decide +kernel, rfl, rfl, rfl, rfl, rfl, rfl⟩⟩

end Sys2Proof.Tests
end

section
/-! PROOF. A step on a transaction that decodes runs its command (spec/00_scope.md R3, spec/20_memory.md R64,
spec/30_encoding.md R100). -/

namespace Sys2Proof.Machine

/-- Taking a transaction that decodes to `i` gives `i` and the state without that input. -/
theorem takeInput_command {s : State} {t : Transaction} {rest : List HostInput} {i : Instr}
    (hs : s.inbox = .transaction t :: rest) (ht : decode t = .instr i) :
    takeInput s = .command i (s.dequeue rest) := by
  simp only [takeInput, hs, ht]

/-- A step on a command taken from the port is that command's meaning, with nothing around it. -/
theorem step_of_takeInput_command {s s' : State} {i : Instr} (h : takeInput s = .command i s') :
    step s = exec i s' := by
  simp only [step, h]

/-- Settles O6: the port yields the command and the dequeued state, on which `step` is `exec`. -/
theorem stepRunsDecodedCommand : Obligations.StepRunsDecodedCommand := by
  intro s t rest i hs ht
  exact step_of_takeInput_command (takeInput_command hs ht)

end Sys2Proof.Machine
end

section
/-! PROOF. What one step can do to the state, said once: the effects of a command, of a faulted block and of the host's
other inputs (spec/60_exceptions.md R251, R257, R258; spec/70_reset_and_hazards.md R281). -/

namespace Sys2Proof.Machine

/-- The writes of a command that answers without a fault: each rule that writes, with the condition it writes under. -/
inductive Writes (s : State) : State → Prop where
  /-- a query (R120 to R122, R125, R191, R221, R240) -/
  | nothing : Writes s s
  /-- FILL (R123) -/
  | append (bytes : List Byte) (hfree : bytes.length ≤ s.free) : Writes s (s.appendBytes bytes).clearToken
  /-- CONSUME (R124) -/
  | evict (n : Nat) (hn : n ≤ s.len.toNat) : Writes s (s.evict n).clearToken
  /-- RDB of a cell outside the content (R11, R63) -/
  | draw : Writes s s.takeDraw
  /-- CRCI and CRCU (R219, R220) -/
  | crc (c : U16) : Writes s (s.setCrcAcc c)
  /-- READ (R171) -/
  | classify (out : ReadOutcome) (hout : s.readOutcome = some out) : Writes s (s.updateToken out)
  /-- CONV (R192) -/
  | spend : Writes s s.clearToken

/-- What a presented transaction does to the state that takes it. -/
inductive Effect (s : State) : State → Prop where
  /-- a faulted block only answers (R257) -/
  | stayFaulted (hs : s.faultCause ≠ .none) : Effect s s.answerFaulted
  /-- a healthy block raises a fault and changes nothing else (R251) -/
  | fault (hs : s.Healthy) (c : FaultCause) (info : Count) (hc : c ≠ .none) : Effect s (s.raiseFault c info)
  /-- a healthy block carries the command out and answers it -/
  | answer (hs : s.Healthy) {u : State} (hu : Writes s u) (r : Response) (hr : r.rcode ≠ .faulted) :
      Effect s (u.respond r)

/-- Behind the preamble only the command's own rule is left to look at. -/
theorem Effect.of_preamble {top : Byte} {legal : Bool} {s t : State} {command : Result}
    (h : preamble top legal s command = .next t) (hcmd : s.Healthy → command = .next t → Effect s t) : Effect s t := by
  obtain ⟨hs, hp⟩ | ⟨hs, -, hp⟩ | ⟨hs, -, hp⟩ := preamble_cases top legal s command <;> rw [hp] at h
  · cases h; exact .stayFaulted hs
  · exact hcmd hs h
  · cases h; exact .fault hs _ _ (by decide)

/-- A command whose own rule raises no fault. -/
theorem Effect.of_answer {top : Byte} {legal : Bool} {s t u : State} {r : Response}
    (h : preamble top legal s (.next (u.respond r)) = .next t) (hu : Writes s u) (hr : r.rcode ≠ .faulted) :
    Effect s t :=
  .of_preamble h fun hs hc => by cases hc; exact .answer hs hu r hr

/-- A command of the token whose own rule raises no fault once the token is valid (R255). -/
theorem Effect.of_needToken {top : Byte} {opcode : BitVec 4} {s t u : State} {r : Response}
    (h : preamble top true s (needToken opcode s (.next (u.respond r))) = .next t) (hu : Writes s u)
    (hr : r.rcode ≠ .faulted) : Effect s t :=
  .of_preamble h fun hs hc => by
    obtain ⟨-, hn⟩ | ⟨-, hn⟩ := needToken_cases opcode s (.next (u.respond r)) <;> rw [hn] at hc <;> cases hc
    · exact .answer hs hu r hr
    · exact .fault hs _ _ (by decide)

theorem ReadOutcome.response_rcode_ne (out : ReadOutcome) : out.response.rcode ≠ .faulted := by
  cases out <;> simp [ReadOutcome.response]

theorem execConsume_effect {n : Count} {s t : State} (h : execConsume n s = .next t) : Effect s t :=
  .of_preamble h fun hs hc => by
    split at hc <;> cases hc
    · exact .fault hs _ _ (by decide)
    · next hn => exact .answer hs (.evict _ (Nat.not_lt.1 hn)) _ (by decide)

theorem execRdb_effect {i : Count} {s t : State} (h : execRdb i s = .next t) : Effect s t :=
  .of_preamble h fun hs hc => by
    split at hc
    · cases hc; exact .fault hs _ _ (by decide)
    · split at hc
      · split at hc <;> cases hc
        exact .answer hs .nothing _ (by simp [okResponse])
      · cases hc; exact .answer hs .draw _ (by simp [okResponse])

theorem execRead_effect {s t : State} (h : execRead s = .next t) : Effect s t :=
  .of_preamble h fun hs hc => by
    split at hc <;> cases hc
    next out hout => exact .answer hs (.classify out hout) _ out.response_rcode_ne

/-- Every command that gives a next state has one of the effects. -/
theorem exec_effect {i : Instr} {s t : State} (h : exec i s = .next t) : Effect s t := by
  have ok (v : Count) : (okResponse v).rcode ≠ .faulted := by simp [okResponse]
  have view (v : Slice × Slice) : (viewResponse v).rcode ≠ .faulted := by simp [viewResponse]
  cases i with
  | cap => exact .of_answer h .nothing (ok _)
  | len => exact .of_answer h .nothing (ok _)
  | full => exact .of_answer h .nothing (ok _)
  | fill payload => exact .of_answer h (.append _ (by simp)) (ok _)
  | consume n => exact execConsume_effect h
  | data => exact .of_answer h .nothing (view _)
  | rdb index => exact execRdb_effect h
  | read => exact execRead_effect h
  | body => exact .of_needToken h .nothing (view _)
  | conv => exact .of_needToken h .spend (ok _)
  | crci => exact .of_answer h (.crc _) (ok _)
  | crcu payload => exact .of_answer h (.crc _) (ok _)
  | crcr => exact .of_answer h .nothing (ok _)
  | stat => exact .of_answer h .nothing (ok _)

/-- An illegal word has one of the effects too (R253). -/
theorem illegalWord_effect {top : Byte} {s t : State} (h : illegalWord top s = .next t) : Effect s t := by
  obtain ⟨hs, hp⟩ | ⟨-, hl, -⟩ | ⟨hs, -, hp⟩ := preamble_cases top false s (.next s)
  · cases hp.symm.trans h; exact .stayFaulted hs
  · cases hl
  · cases hp.symm.trans h; exact .fault hs _ _ (by decide)

/-- Everything a step that gives a next state can do: hold, reset, or take a transaction with its effect. -/
theorem step_cases {s t : State} (h : step s = .next t) :
    (s.inbox = [] ∧ t = s) ∨
      (∃ rest, s.inbox = .reset :: rest ∧ t = (s.dequeue rest).resetInput) ∨
      (∃ x rest, s.inbox = .transaction x :: rest ∧ Effect (s.dequeue rest) t) := by
  unfold step takeInput at h
  cases hin : s.inbox with
  | nil =>
    simp only [hin] at h
    cases h
    exact .inl ⟨rfl, rfl⟩
  | cons input rest =>
    cases input with
    | reset =>
      simp only [hin] at h
      cases h
      exact .inr (.inl ⟨rest, rfl, rfl⟩)
    | transaction x =>
      refine .inr (.inr ⟨x, rest, rfl, ?_⟩)
      cases hx : decode x <;> simp only [hin, hx] at h
      · exact exec_effect h
      · exact illegalWord_effect h
      · cases h

/-! ### The configuration (R20, R28) -/

theorem Writes.cfg_eq {s u : State} (h : Writes s u) : u.cfg = s.cfg := by
  cases h with
  | classify out _ => cases out <;> rfl
  | evict n _ => simp
  | nothing | append | draw | crc | spend => rfl

theorem Effect.cfg_eq {s t : State} (h : Effect s t) : t.cfg = s.cfg := by
  cases h with
  | stayFaulted | fault => rfl
  | answer _ hu => exact hu.cfg_eq

/-- Settles O15: no effect writes the configuration, and the reset input copies it. -/
theorem stepKeepsConfiguration : Obligations.StepKeepsConfiguration := by
  intro s t h
  obtain ⟨-, rfl⟩ | ⟨rest, -, rfl⟩ | ⟨x, rest, -, heff⟩ := step_cases h
  · rfl
  · rfl
  · exact heff.cfg_eq

end Sys2Proof.Machine
end

section
/-! PROOF. The store as a function of the content: each cell reads as the content's byte at its logical offset. In this
form FILL appends and CONSUME drops, whatever HEAD and the layout (spec/10_state.md R34, spec/40_buffer.md R127). -/

namespace Sys2Proof.Machine

/-- The store holds exactly the bytes of `cs`: a cell below `N` reads as the byte at its offset, and as no specified
value past the content's end or from `N` up (R52, R63). -/
structure State.Holds (s : State) (cs : List Byte) : Prop where
  length_eq : cs.length = s.len.toNat
  read_eq : ∀ a, s.store.read a = if a < s.capacity then cs[s.offsetOf a]? else none

/-- In a state that satisfies the invariant the store holds exactly the content. -/
theorem State.Inv.holds {s : State} (h : s.Inv) {cs : List Byte} (hc : s.content = some cs) : s.Holds cs := by
  obtain ⟨hlen, hbytes⟩ := (s.content_eq_some_iff cs).1 hc
  refine ⟨hlen, fun a => ?_⟩
  by_cases hocc : a < s.capacity ∧ s.occupied a = true
  · obtain ⟨ha, ho⟩ := hocc
    have hoff : s.offsetOf a < s.len.toNat := by simpa [State.occupied] using ho
    rw [if_pos ha, ← hbytes _ hoff, s.phys_eq h.head_contiguous _ (s.offsetOf_lt a), s.head_add_offsetOf h.head_lt a ha]
  · have hnone : s.store.read a = none := by simpa using mt (h.store_cells a).1 hocc
    rw [hnone]
    split
    · next ha =>
      have hoff : s.len.toNat ≤ s.offsetOf a := by simpa [State.occupied, ha] using hocc
      exact (List.getElem?_eq_none (by omega)).symm
    · rfl

namespace State.Holds

variable {s : State} {cs : List Byte}

/-- The cells listed are those of the content. -/
theorem store_cells (h : s.Holds cs) (a : Nat) :
    (s.store.read a).isSome = true ↔ a < s.capacity ∧ s.occupied a = true := by
  rw [h.read_eq]
  by_cases ha : a < s.capacity <;> simp [ha, State.occupied, h.length_eq]

/-- What the store holds is the content. -/
theorem content_eq (h : s.Holds cs) (hlen : s.len.toNat ≤ s.capacity) (hhead : s.head.toNat < s.capacity)
    (hcont : s.cfg.layout = .contiguous → s.head = 0#24) : s.content = some cs := by
  refine (s.content_eq_some_iff cs).2 ⟨h.length_eq, fun i hi => ?_⟩
  have hiN : i < s.capacity := by omega
  rw [s.phys_eq hcont i hiN, h.read_eq, if_pos (Nat.mod_lt _ (by omega)), s.offsetOf_add_head hhead,
    Nat.mod_eq_of_lt hiN]

/-- FILL appends (R123). -/
theorem appendBytes (h : s.Holds cs) (hhead : s.head.toNat < s.capacity) {bytes : List Byte}
    (hfit : s.len.toNat + bytes.length ≤ s.capacity) : (s.appendBytes bytes).Holds (cs ++ bytes) := by
  have hlen := h.length_eq
  have hN := s.capacity_lt
  refine ⟨?_, fun a => ?_⟩
  · rw [State.appendBytes_len, toNat_count _ (by omega), List.length_append, hlen]
  · change (Memory.writeRun s.capacity s.store (s.head.toNat + s.len.toNat) bytes).read a
      = if a < s.capacity then (cs ++ bytes)[s.offsetOf a]? else none
    by_cases htarget : a < s.capacity ∧ s.len.toNat ≤ s.offsetOf a ∧ s.offsetOf a < s.len.toNat + bytes.length
    · obtain ⟨ha, hlo, hhi⟩ := htarget
      have haddr : a = (s.head.toNat + s.len.toNat + (s.offsetOf a - s.len.toNat)) % s.capacity := by
        rw [Nat.add_assoc, Nat.add_sub_cancel' hlo, s.head_add_offsetOf hhead a ha]
      rw [if_pos ha, List.getElem?_append_right (by omega), hlen]
      conv_lhs => rw [haddr]
      exact Memory.read_writeRun_target _ _ _ _ _ (by omega) (by omega)
    · rw [Memory.read_writeRun_other, h.read_eq]
      · split
        · next ha =>
          rcases Nat.lt_or_ge (s.offsetOf a) s.len.toNat with hlt | hge
          · rw [List.getElem?_append_left (by omega)]
          · have hpast : s.len.toNat + bytes.length ≤ s.offsetOf a := by omega
            rw [List.getElem?_eq_none (by omega), List.getElem?_eq_none (by simp; omega)]
        · rfl
      · rintro j hj rfl
        refine htarget ⟨Nat.mod_lt _ (by omega), ?_⟩
        rw [Nat.add_assoc, s.offsetOf_add_head hhead, Nat.mod_eq_of_lt (by omega)]
        omega

end State.Holds

/-- The offsets after HEAD has moved on by `n`: the cells ahead of it come `n` nearer, the `n` it passed go to the end. -/
theorem State.offsetOf_of_head_moved {s t : State} {n a : Nat} (hcap : t.capacity = s.capacity)
    (hmove : t.head.toNat = (s.head.toNat + n) % s.capacity) (hhead : s.head.toNat < s.capacity) (hn : n ≤ s.capacity)
    (ha : a < s.capacity) :
    t.offsetOf a = if n ≤ s.offsetOf a then s.offsetOf a - n else s.offsetOf a + s.capacity - n := by
  have hoff := s.offsetOf_lt a
  have key : ∀ k, k < s.capacity → (s.head.toNat + n + k) % s.capacity = a → t.offsetOf a = k := by
    intro k hk hka
    have := t.offsetOf_add_head (by rw [hmove, hcap]; exact Nat.mod_lt _ (by omega)) k
    rwa [hmove, hcap, Nat.mod_add_mod, hka, Nat.mod_eq_of_lt hk] at this
  have haddr := s.head_add_offsetOf hhead a ha
  split
  · exact key _ (by omega) (by rwa [Nat.add_assoc, Nat.add_sub_cancel' ‹_›])
  · refine key _ (by omega) ?_
    rw [show s.head.toNat + n + (s.offsetOf a + s.capacity - n) = s.head.toNat + s.offsetOf a + s.capacity by omega,
      Nat.add_mod_right, haddr]

/-- HEAD after CONSUME under RING, as a number (R124). -/
theorem State.evict_ring_head_toNat {s : State} {n : Nat} (hl : s.cfg.layout = .ring) :
    (s.evict n).head.toNat = (s.head.toNat + n) % s.capacity := by
  have hN := s.capacity_lt
  have hmod := Nat.mod_lt (s.head.toNat + n) (show 0 < s.capacity by have := s.capacity_ge; omega)
  rw [(s.evict_ring n hl).1, toNat_count _ (by omega)]

/-- LEN after CONSUME, as a number (R124). -/
theorem State.evict_len_toNat (s : State) (n : Nat) : (s.evict n).len.toNat = s.len.toNat - n := by
  rw [State.evict_len, toNat_count _ (by have := s.len.isLt; omega)]

@[simp] theorem State.evict_capacity (s : State) (n : Nat) : (s.evict n).capacity = s.capacity :=
  congrArg Config.capacity (s.evict_cfg n)

/-- CONSUME leaves HEAD in range, and at 0 under CONTIGUOUS (R33, 2). -/
theorem State.Inv.evict_head {s : State} (h : s.Inv) (n : Nat) :
    (s.evict n).head.toNat < s.capacity ∧ (s.cfg.layout = .contiguous → (s.evict n).head = 0#24) := by
  cases hl : s.cfg.layout with
  | ring =>
    rw [State.evict_ring_head_toNat hl]
    exact ⟨Nat.mod_lt _ (by have := s.capacity_ge; omega), by simp⟩
  | contiguous =>
    rw [(s.evict_contiguous n hl).1]
    exact ⟨h.head_lt, fun _ => h.head_contiguous hl⟩

/-- Under RING, CONSUME drops: the evicted cells get the offsets past the new content's end. -/
theorem State.Holds.evict_ring {s : State} {cs : List Byte} {n : Nat} (h : s.Holds cs) (hs : s.Inv)
    (hl : s.cfg.layout = .ring) (hn : n ≤ s.len.toNat) : (s.evict n).Holds (cs.drop n) := by
  have hlen := h.length_eq
  have hle := hs.len_le
  refine ⟨by rw [State.evict_len_toNat, List.length_drop, hlen], fun a => ?_⟩
  rw [(s.evict_ring n hl).2, Memory.read_forget, h.read_eq, State.evict_capacity]
  by_cases ha : a < s.capacity
  · rw [State.offsetOf_of_head_moved (State.evict_capacity s n) (State.evict_ring_head_toNat hl) hs.head_lt (by omega) ha,
      if_pos ha, if_pos ha, List.getElem?_drop]
    rcases Nat.lt_or_ge (s.offsetOf a) n with hlt | hge
    · rw [if_pos (by simpa using hlt), if_neg (by omega), List.getElem?_eq_none (by omega)]
    · rw [if_neg (by simpa using hge), if_pos hge, Nat.add_sub_cancel' hge]
  · simp [ha]

/-- Under CONTIGUOUS, CONSUME drops: offsets are addresses, and the shift lowers each by `n`. -/
theorem State.Holds.evict_contiguous {s : State} {cs : List Byte} {n : Nat} (h : s.Holds cs) (hs : s.Inv)
    (hl : s.cfg.layout = .contiguous) : (s.evict n).Holds (cs.drop n) := by
  have hlen := h.length_eq
  have hle := hs.len_le
  have hhead := hs.head_contiguous hl
  have offset (u : State) (hu : u.head = 0#24) (a : Nat) (ha : a < u.capacity) : u.offsetOf a = a := by
    have := u.offsetOf_add_head (by simp [hu]; omega) a
    simpa [hu, Nat.mod_eq_of_lt ha] using this
  have read (a : Nat) : s.store.read a = cs[a]? := by
    rw [h.read_eq]
    split
    · next ha => rw [offset s hhead a ha]
    · exact (List.getElem?_eq_none (by omega)).symm
  refine ⟨by rw [State.evict_len_toNat, List.length_drop, hlen], fun a => ?_⟩
  rw [(s.evict_contiguous n hl).2, Memory.read_shiftDown _ _ _ hs.store_wf, read, read, State.evict_capacity]
  have hnew : (if a < s.capacity then (cs.drop n)[(s.evict n).offsetOf a]? else none) = cs[n + a]? := by
    split
    · next ha =>
      rw [offset _ (by rw [(s.evict_contiguous n hl).1, hhead]) a (by simpa using ha), List.getElem?_drop]
    · exact (List.getElem?_eq_none (by omega)).symm
  rw [hnew, Nat.add_comm n a]
  split
  · rfl
  · rw [List.getElem?_eq_none (show cs.length ≤ a + n by omega)]
    split
    · rfl
    · exact List.getElem?_eq_none (by omega)

/-- CONSUME drops the first `n` bytes, whatever the layout (R124). -/
theorem State.Holds.evict {s : State} {cs : List Byte} {n : Nat} (h : s.Holds cs) (hs : s.Inv)
    (hn : n ≤ s.len.toNat) : (s.evict n).Holds (cs.drop n) := by
  cases hl : s.cfg.layout with
  | ring => exact h.evict_ring hs hl hn
  | contiguous => exact h.evict_contiguous hs hl

/-- CONSUME keeps the canonical form of the store. -/
theorem State.evict_store_wf {s : State} (h : s.store.wf = true) (n : Nat) : (s.evict n).store.wf = true := by
  cases hl : s.cfg.layout with
  | ring => rw [(s.evict_ring n hl).2]; exact Memory.forget_wf _ _ h
  | contiguous => rw [(s.evict_contiguous n hl).2]; exact Memory.shiftDown_wf _ _ _ h

/-- LEN after FILL, as a number (R127). -/
theorem State.appendBytes_len_toNat {s : State} {bytes : List Byte} (hfit : s.len.toNat + bytes.length ≤ s.capacity) :
    (s.appendBytes bytes).len.toNat = s.len.toNat + bytes.length := by
  rw [State.appendBytes_len, toNat_count _ (by have := s.capacity_lt; omega)]

/-- Settles O20: the store holds the old content with the accepted bytes behind it, so that is the content. -/
theorem fillAppendsToContent : Obligations.FillAppendsToContent := by
  intro s payload content h hs hc
  have hle := h.len_le
  have htake : payload.take (min payload.length s.free) = payload.take s.free :=
    List.take_eq_take_iff.2 (by omega)
  have hacc : (payload.take s.free).length = min s.free payload.length := List.length_take
  have hfree : s.free = s.capacity - s.len.toNat := rfl
  have hfit : s.len.toNat + (payload.take s.free).length ≤ s.capacity := by omega
  have hlen := State.appendBytes_len_toNat hfit
  refine ⟨_, preamble_healthy _ s _ hs, ?_, ?_⟩
  · rw [htake]
    exact ((h.holds hc).appendBytes h.head_lt hfit).content_eq (hlen.trans_le hfit) h.head_lt h.head_contiguous
  · rw [htake]
    change (s.appendBytes (payload.take s.free)).len.toNat = min (s.len.toNat + payload.length) s.capacity
    omega

/-- Settles O23: the store holds the old content without its first `n` bytes, so that is the content. -/
theorem consumeDropsContent : Obligations.ConsumeDropsContent := by
  intro s n content h hs hc hn
  obtain ⟨hhead, hcont⟩ := h.evict_head n.toNat
  have hexec : exec (.consume n) s = .next ((s.evict n.toNat).clearToken.respond (okResponse 0#24)) :=
    (preamble_healthy _ s _ hs).trans (if_neg (Nat.not_lt.2 hn))
  refine ⟨_, hexec, ?_, State.evict_len_toNat s n.toNat⟩
  refine ((h.holds hc).evict h hn).content_eq ?_ (by simpa using hhead) (by simpa using hcont)
  rw [State.evict_len_toNat, State.evict_capacity]
  exact (Nat.sub_le _ _).trans h.len_le

end Sys2Proof.Machine
end

section
/-! PROOF. The invariants of spec/10_state.md R33 hold at reset and every step keeps them. -/

namespace Sys2Proof.Machine

/-- The invariant speaks of no accumulator, draw, input or response: these may change under it. -/
theorem State.Inv.frame {s : State} (h : s.Inv) (c : U16) (d : Nat) (i : List HostInput) (o : List Response)
    (p : List (List Response)) :
    State.Inv { s with crcAcc := c, draws := d, inbox := i, outbox := o, pastRuns := p } :=
  { h with }

theorem State.Inv.respond {s : State} (h : s.Inv) (r : Response) : (s.respond r).Inv := h.frame _ _ _ _ _

theorem State.Inv.dequeue {s : State} (h : s.Inv) (rest : List HostInput) : (s.dequeue rest).Inv := h.frame _ _ _ _ _

/-- A block that shows a fault may record any pair. -/
theorem State.Inv.raiseFault {s : State} (h : s.Inv) {c : FaultCause} (hc : c ≠ .none) (info : Count) :
    (s.raiseFault c info).Inv :=
  { h with fault_clear := fun hnone => absurd hnone hc }

/-- The empty token needs nothing of the buffer. -/
theorem State.Inv.clearToken {s : State} (h : s.Inv) : s.clearToken.Inv :=
  { h with token_fits := by simp, token_frame := by simp, token_clear := fun _ => rfl }

/-- READ reports a frame only where the content holds all of it (R167). -/
theorem frameSize_le_of_parseContent {N : Nat} {v : CrcVariant} {content : List Byte} {L : U16}
    (h : parseContent N v content = .frame L) : frameSize L ≤ content.length := by
  have candidate (h : parseCandidate N v content = .frame L) : frameSize L ≤ content.length := by
    simp only [parseCandidate] at h
    split_ifs at h with _ hwhole
    cases h
    exact Nat.not_lt.1 hwhole
  unfold parseContent at h
  split at h
  · cases h
  · split at h
    · cases h
    · exact candidate h
    · cases h

theorem State.frameSize_le_of_readOutcome {s : State} {L : U16} (h : s.readOutcome = some (.frame L)) :
    frameSize L ≤ s.len.toNat := by
  unfold State.readOutcome at h
  split at h
  · cases h
  · split at h
    · next content hc =>
      rw [← s.content_length content hc]
      exact frameSize_le_of_parseContent (Option.some.inj h)
    · cases h

/-- READ arms the token with the frame it has just found (R33, 3; R171). -/
theorem State.Inv.updateToken {s : State} (h : s.Inv) {out : ReadOutcome} (hout : s.readOutcome = some out) :
    (s.updateToken out).Inv := by
  cases out with
  | incomplete => exact h.clearToken
  | junk kind skip => exact h.clearToken
  | frame L =>
    exact {
      h with
      token_fits := fun _ => State.frameSize_le_of_readOutcome hout
      token_frame := fun _ => hout
      token_clear := nofun }

/-- FILL of no more than the free room. -/
theorem State.Inv.appendBytes {s : State} (h : s.Inv) {bytes : List Byte} (hfree : bytes.length ≤ s.free) :
    (s.appendBytes bytes).clearToken.Inv := by
  obtain ⟨c, hc⟩ := State.Inv.exists_content s h
  have hfit : s.len.toNat + bytes.length ≤ s.capacity := by
    have := h.len_le
    unfold State.free at hfree
    omega
  exact {
    h.clearToken with
    len_le := (State.appendBytes_len_toNat hfit).trans_le hfit
    token_fits := by simp
    token_frame := by simp
    store_wf := Memory.writeRun_wf _ _ _ _ h.store_wf
    store_cells := ((h.holds hc).appendBytes h.head_lt hfit).store_cells }

/-- CONSUME of no more than the content. -/
theorem State.Inv.evict {s : State} (h : s.Inv) {n : Nat} (hn : n ≤ s.len.toNat) : (s.evict n).clearToken.Inv := by
  obtain ⟨c, hc⟩ := State.Inv.exists_content s h
  obtain ⟨hhead, hcont⟩ := h.evict_head n
  exact {
    len_le := by
      rw [State.clearToken_len, State.clearToken_capacity, State.evict_len_toNat, State.evict_capacity]
      exact (Nat.sub_le _ _).trans h.len_le
    head_lt := by simpa using hhead
    head_contiguous := by simpa using hcont
    token_fits := by simp
    token_frame := by simp
    token_clear := fun _ => rfl
    fault_clear := by simpa using h.fault_clear
    store_wf := State.evict_store_wf h.store_wf n
    store_cells := ((h.holds hc).evict h hn).store_cells }

theorem Writes.keeps_inv {s u : State} (hw : Writes s u) (h : s.Inv) : u.Inv := by
  cases hw with
  | nothing => exact h
  | append bytes hfree => exact h.appendBytes hfree
  | evict n hn => exact h.evict hn
  | draw => exact h.frame _ _ _ _ _
  | crc c => exact h.frame _ _ _ _ _
  | classify out hout => exact h.updateToken hout
  | spend => exact h.clearToken

theorem Effect.keeps_inv {s t : State} (he : Effect s t) (h : s.Inv) : t.Inv := by
  cases he with
  | stayFaulted _ => exact h.respond _
  | fault _ c info hc => exact h.raiseFault hc info
  | answer _ hu r _ => exact (hu.keeps_inv h).respond r

/-- The empty buffer right after reset, for every configuration (R35). -/
theorem State.inv_resetOf (cfg : Config) : (State.resetOf cfg).Inv where
  len_le := Nat.zero_le _
  head_lt := Nat.lt_of_lt_of_le (by decide : 0 < 8) cfg.capacity_ge
  head_contiguous _ := rfl
  token_fits := nofun
  token_frame := nofun
  token_clear _ := rfl
  fault_clear _ := rfl
  store_wf := rfl
  store_cells a := by simp [State.resetOf, State.occupied]

theorem State.inv_resetInput (s : State) : s.resetInput.Inv := (State.inv_resetOf s.cfg).frame _ _ _ _ _

/-- Settles O13: by the cases of a step, the reset input giving the reset state's buffer. -/
theorem stepKeepsInvariant : Obligations.StepKeepsInvariant := by
  intro s t h hstep
  obtain ⟨-, rfl⟩ | ⟨rest, -, rfl⟩ | ⟨x, rest, -, heff⟩ := step_cases hstep
  · exact h
  · exact State.inv_resetInput _
  · exact heff.keeps_inv (h.dequeue rest)

/-! ### The reset state (R35) -/

/-- A run that has no response yet shows no fault, as the block right after reset has none (R292). -/
theorem State.faultShown_resetOf (cfg : Config) : (State.resetOf cfg).FaultShown := by
  simp [State.FaultShown, State.runFaulted, State.resetOf]

/-- Settles O14: `State.reset` is the reset state of the standard configuration. -/
theorem resetSatisfiesInvariant : Obligations.ResetSatisfiesInvariant :=
  ⟨fun cfg => ⟨State.inv_resetOf cfg, State.faultShown_resetOf cfg⟩, State.inv_resetOf _, State.faultShown_resetOf _⟩

/-- `INIT` by variant (R211). -/
theorem crcInit_eq (v : CrcVariant) : crcInit v = if v = .arc then 0x0000#16 else 0xFFFF#16 := by
  cases v <;> rfl

/-- Settles O10: the reset table, with `CRC_ACC` by the variant. -/
theorem resetStateValues : Obligations.ResetStateValues :=
  ⟨fun cfg => ⟨rfl, rfl, rfl, rfl, rfl, rfl, rfl, fun _ => crcInit_eq cfg.crcVariant⟩, rfl⟩

end Sys2Proof.Machine
end

section
/-! PROOF. How commands reach the store: the view and its sub-ranges name the cells of the content in order
(spec/20_memory.md R55, R56), and RDB of a cell past the content draws (R63). -/

namespace Sys2Proof.Machine

/-! ### Descriptors -/

/-- A descriptor of length 0 is `(0, 0)`, whatever start it was asked for. -/
theorem slice_eq_zero {start len : Nat} (h : (slice start len).len = 0) : slice start len = ⟨0, 0⟩ := by
  rw [slice_len] at h
  simp [slice, h]

/-- A descriptor that names a cell starts where it was asked to. -/
theorem slice_start_of_pos {start len : Nat} (h : 0 < (slice start len).len) : (slice start len).start = start := by
  rw [slice_len] at h
  simp [slice, h]

@[simp] theorem slice_zero_start (len : Nat) : (slice 0 len).start = 0 := by
  unfold slice; split <;> rfl

/-- A descriptor names only cells of another when its range, if not empty, lies inside that one's. -/
theorem slice_cells_subset {start len start' len' : Nat}
    (h : 0 < len → start' ≤ start ∧ start + len ≤ start' + len') :
    ∀ a ∈ (slice start len).cells, a ∈ (slice start' len').cells := by
  intro a ha
  rw [slice_cells, List.mem_range'_1] at *
  omega

/-! ### The view and its sub-ranges as descriptors -/

/-- `min(LEN, N - HEAD)`: how much of the content lies before the end of the store (R55). -/
def State.firstLen (s : State) : Nat := min s.len.toNat (s.capacity - s.head.toNat)

theorem State.firstLen_le (s : State) : s.firstLen ≤ s.len.toNat := Nat.min_le_left _ _

/-- `view()` (R55). -/
theorem State.view_eq (s : State) :
    s.view = (slice s.head.toNat s.firstLen, slice 0 (s.len.toNat - s.firstLen)) := rfl

/-- `subrange(lo, hi)` cuts `[lo, hi)` where the first slice ends: the part before counts on from HEAD, the part behind
from cell 0 (R56). -/
theorem State.subrange_eq (s : State) (lo hi : Nat) :
    s.subrange lo hi =
      (slice (s.head.toNat + lo) (min hi s.firstLen - lo),
        slice (max lo s.firstLen - s.firstLen) (hi - max lo s.firstLen)) := by
  have hguard₁ : lo < s.firstLen ∧ 0 < min hi s.firstLen - lo ↔ 0 < min hi s.firstLen - lo := by omega
  have hguard₂ : s.firstLen < hi ∧ 0 < hi - max lo s.firstLen ↔ 0 < hi - max lo s.firstLen := by omega
  simp only [State.subrange, s.view_eq, slice_len, slice_zero_start, Nat.zero_add, hguard₁, hguard₂]
  refine Prod.ext (ite_congr rfl (fun h => ?_) fun _ => rfl) rfl
  rw [slice_start_of_pos (by rw [slice_len]; omega)]

/-- The view is the sub-range of the whole content. -/
theorem State.subrange_zero_len (s : State) : s.subrange 0 s.len.toNat = s.view := by
  rw [s.subrange_eq, Nat.min_eq_right s.firstLen_le, Nat.zero_max, Nat.sub_self]
  rfl

/-! ### The cells of a sub-range are those of its logical bytes, in order -/

/-- Before the end of the first slice, logical bytes count on from HEAD. -/
theorem State.Inv.phys_of_lt_firstLen {s : State} (h : s.Inv) {i : Nat} (hi : i < s.firstLen) :
    s.phys i = s.head.toNat + i := by
  unfold State.firstLen at hi
  rw [s.phys_eq h.head_contiguous i (by omega), Nat.mod_eq_of_lt (by omega)]

/-- Behind it they count on from cell 0, since the first slice then ends where the store does. -/
theorem State.Inv.phys_of_firstLen_le {s : State} (h : s.Inv) {i : Nat} (hlo : s.firstLen ≤ i)
    (hi : i < s.len.toNat) : s.phys i = i - s.firstLen := by
  have hhead := h.head_lt
  have hle := h.len_le
  have hend : s.firstLen = s.capacity - s.head.toNat := by unfold State.firstLen at *; omega
  rw [s.phys_eq h.head_contiguous i (by omega), Nat.mod_eq_sub_mod (by omega), Nat.mod_eq_of_lt (by omega)]
  omega

/-- The numbers from `lo` up to `hi`, cut at `a`. -/
theorem range'_cut (a : Nat) {lo hi : Nat} (h : lo ≤ hi) :
    List.range' lo (min hi a - lo) ++ List.range' (max lo a) (hi - max lo a) = List.range' lo (hi - lo) := by
  rcases Nat.le_total hi a with hle | hge
  · rw [Nat.min_eq_left hle, show hi - max lo a = 0 by omega, List.range'_zero, List.append_nil]
  · rw [show max lo a = lo + (min hi a - lo) by omega, List.range'_append_1]
    congr 1
    omega

/-- The cells of a sub-range are the cells of its logical bytes, in order (R56). -/
theorem State.Inv.subrange_cells {s : State} (h : s.Inv) {lo hi : Nat} (hlo : lo ≤ hi) (hhi : hi ≤ s.len.toNat) :
    (s.subrange lo hi).1.cells ++ (s.subrange lo hi).2.cells = (List.range' lo (hi - lo)).map s.phys := by
  rw [s.subrange_eq, slice_cells, slice_cells, ← range'_cut s.firstLen hlo, List.map_append]
  congr 1
  · rw [← List.map_add_range']
    refine List.map_congr_left fun i hi => ?_
    rw [List.mem_range'_1] at hi
    exact (h.phys_of_lt_firstLen (by omega)).symm
  · rw [← List.map_sub_range' (Nat.le_max_right lo _)]
    refine List.map_congr_left fun i hi => ?_
    rw [List.mem_range'_1] at hi
    exact (h.phys_of_firstLen_le (by omega) (by omega)).symm

/-! ### Reading a part of the content -/

/-- A part of the cells holds that part of the bytes. -/
theorem Memory.readAll_take_drop {m : Memory} {as : List Nat} {bytes : List Byte} (h : m.readAll as = some bytes)
    (lo hi : Nat) : m.readAll ((as.take hi).drop lo) = some ((bytes.take hi).drop lo) := by
  rw [Memory.readAll_eq_some_iff] at *
  rw [List.map_drop, List.map_take, h, List.map_drop, List.map_take]

/-- Reading the cells of a sub-range gives its part of the content (R56). -/
theorem State.Inv.readAll_subrange {s : State} (h : s.Inv) {content : List Byte} (hc : s.content = some content)
    {lo hi : Nat} (hlo : lo ≤ hi) (hhi : hi ≤ s.len.toNat) :
    s.store.readAll ((s.subrange lo hi).1.cells ++ (s.subrange lo hi).2.cells) = some ((content.take hi).drop lo) := by
  have hrange : ((List.range s.len.toNat).take hi).drop lo = List.range' lo (hi - lo) := by
    rw [List.take_range, Nat.min_eq_left hhi, List.range_eq_range', List.drop_range', Nat.mul_one, Nat.zero_add]
  rw [h.subrange_cells hlo hhi, ← hrange, List.map_drop, List.map_take]
  exact Memory.readAll_take_drop hc lo hi

/-- Reading the cells of the view gives the content (R55). -/
theorem State.Inv.readAll_view {s : State} (h : s.Inv) {content : List Byte} (hc : s.content = some content) :
    s.store.readAll (s.view.1.cells ++ s.view.2.cells) = some content := by
  have hread := h.readAll_subrange hc (Nat.zero_le _) le_rfl
  rwa [s.subrange_zero_len, List.drop_zero, List.take_of_length_le (s.content_length content hc).le] at hread

/-! ### The obligations -/

/-- Settles O26: the view is the sub-range of the whole content; the rest is arithmetic on HEAD, LEN and N. -/
theorem viewReadsContent : Obligations.ViewReadsContent := by
  intro s content h hc
  refine ⟨h.readAll_view hc, ?_⟩
  have hlen : s.len.toNat ≤ s.cfg.capacity := h.len_le
  have hhead : s.head.toNat < s.cfg.capacity := h.head_lt
  have hfirst : s.firstLen = min s.len.toNat (s.cfg.capacity - s.head.toNat) := rfl
  rw [s.view_eq]
  refine ⟨fun hl => slice_eq_zero ?_, fun _ => ?_, slice_eq_zero, slice_eq_zero, slice_len _ _, slice_start_of_pos,
    slice_zero_start _⟩
  · have hhead0 : s.head.toNat = 0 := by rw [h.head_contiguous hl]; rfl
    rw [slice_len]
    omega
  · rw [slice_len]
    omega

/-- Settles O27: the two descriptors name the cells of the logical bytes `lo .. hi - 1`, cut where the first slice
ends. -/
theorem subrangeReadsContent : Obligations.SubrangeReadsContent := by
  intro s content lo hi h hc hlo hhi
  refine ⟨h.readAll_subrange hc hlo hhi, ?_⟩
  have hfirst := s.firstLen_le
  rw [s.subrange_eq, s.view_eq]
  refine ⟨?_, slice_cells_subset ?_, slice_cells_subset ?_, slice_eq_zero, slice_eq_zero⟩
  · rw [slice_len, slice_len]
    omega
  all_goals omega

/-- Settles O29: such a cell lies in the store and outside the content, so the last of RDB's cases answers. -/
theorem rdbOutsideContentDraws : Obligations.RdbOutsideContentDraws := by
  intro s i hs hN hoff
  have hfree : ¬ s.occupied i.toNat = true := by simpa [State.occupied] using hoff
  exact (preamble_healthy _ s _ hs).trans ((if_neg (Nat.not_le.2 hN)).trans (if_neg hfree))

end Sys2Proof.Machine
end

section
/-! PROOF. The fields of a command word, and what a transaction decodes to, said once: by its payload length, its `RSV`
field and the opcode map (spec/30_encoding.md R88, R89, R92, R98). -/

namespace Sys2Proof

/-! ### The fields of a word (R89) -/

/-- `CMD[31:24]` is the `OP` field over the `RSV` field. -/
theorem topByte_eq_append (cmd : Word) : topByte cmd = opField cmd ++ rsvField cmd :=
  (BitVec.extractLsb'_append_extractLsb'_eq_extractLsb' (start₁ := 24) (len₁ := 4) rfl).symm

/-- A word is its three fields one after another. -/
theorem fields_append (cmd : Word) : opField cmd ++ rsvField cmd ++ argField cmd = cmd := by
  rw [← topByte_eq_append]
  exact (BitVec.extractLsb'_append_extractLsb'_eq_extractLsb' (start₁ := 0) (len₁ := 24) rfl).trans
    BitVec.extractLsb'_eq_self

/-- A word with `RSV = 0` is put together from its `OP` and `ARG` fields. -/
theorem commandWord_fields {cmd : Word} (h : rsvField cmd = 0#4) : commandWord (opField cmd) (argField cmd) = cmd := by
  obtain ⟨hop, hrsv, harg⟩ := Laws.Presentable.fields_of_commandWord (opField cmd) (argField cmd)
  rw [← fields_append (commandWord _ _), hop, hrsv, harg, ← h, fields_append]

/-! ### The opcode map (R92) -/

/-- Every opcode but 0x0 and 0xF is that of a command. -/
theorem opcode_cases (op : BitVec 4) : op = 0x0#4 ∨ op = 0xF#4 ∨ ∃ i : Instr, i.opcode = op := by
  have h : ∀ op : BitVec 4, op = 0x0#4 ∨ op = 0xF#4 ∨
      op ∈ [Instr.cap, .len, .full, .fill [], .consume 0#24, .data, .rdb 0#24, .read, .body, .conv, .crci, .crcu [],
        .crcr, .stat].map Instr.opcode := by decide
  exact (h op).imp_right (.imp_right fun hmem => (List.mem_map.1 hmem).imp fun _ => And.right)

/-- The opcode map gives every command for its own opcode, operand and payload. -/
theorem decodeOpcode_of_instr (i : Instr) : decodeOpcode i.opcode i.arg i.payload = some i := by
  cases i <;> rfl

/-- The opcode map has a command for an assigned opcode, without an operand where none is taken (R98, 1 and 4). -/
theorem exists_decodeOpcode_iff (op : BitVec 4) (arg : Count) (payload : List Byte) :
    (∃ i, decodeOpcode op arg payload = some i) ↔
      op ≠ 0x0#4 ∧ op ≠ 0xF#4 ∧ (arg = 0#24 ∨ op ∈ [0x4#4, 0x5#4, 0x7#4, 0xC#4]) := by
  obtain rfl | rfl | ⟨i, rfl⟩ := opcode_cases op
  · exact iff_of_false nofun (absurd rfl ·.1)
  · exact iff_of_false nofun (absurd rfl ·.2.1)
  · cases i <;> simp [decodeOpcode, Instr.opcode]

/-- The command the opcode map gives has the opcode, operand and payload asked for, if the payload's length is the one
R88 fixes. -/
theorem fields_of_decodeOpcode {op : BitVec 4} {arg : Count} {payload : List Byte} {i : Instr}
    (h : decodeOpcode op arg payload = some i)
    (hlen : payload.length = if op = 0x4#4 ∨ op = 0xC#4 then arg.toNat else 0) :
    i.opcode = op ∧ i.arg = arg ∧ i.payload = payload := by
  obtain rfl | rfl | ⟨j, rfl⟩ := opcode_cases op
  · cases h
  · cases h
  · cases j with
    | fill | crcu =>
      cases h
      refine ⟨rfl, ?_, rfl⟩
      rw [Instr.arg, hlen, if_pos (by simp [Instr.opcode]), BitVec.ofNat_toNat, BitVec.setWidth_eq]
    | consume | rdb =>
      cases h
      exact ⟨rfl, rfl, (List.length_eq_zero_iff.1 hlen).symm⟩
    | cap | len | full | data | read | body | conv | crci | crcr | stat =>
      obtain ⟨harg, hi⟩ := Option.ite_none_right_eq_some.1 h
      cases hi
      exact ⟨rfl, harg.symm, (List.length_eq_zero_iff.1 hlen).symm⟩

/-! ### Decoding a transaction (R88, R98) -/

/-- Everything `decode` can answer. -/
theorem decode_cases (t : Transaction) :
    (t.payload.length ≠ payloadLength t.cmd ∧ decode t = .notPresentable) ∨
      (t.payload.length = payloadLength t.cmd ∧
        (rsvField t.cmd ≠ 0#4 ∨ decodeOpcode (opField t.cmd) (argField t.cmd) t.payload = none) ∧
        decode t = .illegal (topByte t.cmd)) ∨
      (t.payload.length = payloadLength t.cmd ∧ rsvField t.cmd = 0#4 ∧
        ∃ i, decodeOpcode (opField t.cmd) (argField t.cmd) t.payload = some i ∧ decode t = .instr i) := by
  by_cases hlen : t.payload.length = payloadLength t.cmd
  · have hp : t.presentable = true := beq_iff_eq.2 hlen
    by_cases hrsv : rsvField t.cmd = 0#4
    · cases hop : decodeOpcode (opField t.cmd) (argField t.cmd) t.payload with
      | none => exact .inr (.inl ⟨hlen, .inr rfl, by simp [decode, hp, hrsv, hop]⟩)
      | some i => exact .inr (.inr ⟨hlen, hrsv, i, rfl, by simp [decode, hp, hrsv, hop]⟩)
    · exact .inr (.inl ⟨hlen, .inl hrsv, by simp [decode, hp, hrsv]⟩)
  · have hp : t.presentable = false := beq_eq_false_iff_ne.2 hlen
    exact .inl ⟨hlen, by simp [decode, hp]⟩

/-- A transaction decodes to the command the opcode map gives for it, if it can be presented and its `RSV` is 0. -/
theorem decode_eq_instr_iff {t : Transaction} {i : Instr} :
    decode t = .instr i ↔
      t.payload.length = payloadLength t.cmd ∧ rsvField t.cmd = 0#4 ∧
        decodeOpcode (opField t.cmd) (argField t.cmd) t.payload = some i := by
  obtain ⟨hlen, h⟩ | ⟨hlen, hw, h⟩ | ⟨hlen, hrsv, j, hop, h⟩ := decode_cases t
  · simp [h, hlen]
  · rw [h]
    refine iff_of_false nofun ?_
    rintro ⟨-, hrsv, hop⟩
    simp [hrsv, hop] at hw
  · simp [h, hlen, hrsv, hop]

end Sys2Proof
end

section
/-! PROOF. Encoding and decoding are inverse to each other, and which words decode to a command (spec/30_encoding.md R88
to R92, R98, R100). -/

namespace Sys2Proof

/-! ### From a command to its word -/

/-- The encoding of any well-formed command can be presented, with `RSV = 0` and the command's opcode. -/
theorem encode_presentable (i : Instr) : Laws.Presentable.Statement i := by
  cases i with
  | cap => exact Laws.Presentable.cap
  | len => exact Laws.Presentable.len
  | full => exact Laws.Presentable.full
  | fill payload => exact Laws.Presentable.fill payload
  | consume n => exact Laws.Presentable.consume n
  | data => exact Laws.Presentable.data
  | rdb i => exact Laws.Presentable.rdb i
  | read => exact Laws.Presentable.read
  | body => exact Laws.Presentable.body
  | conv => exact Laws.Presentable.conv
  | crci => exact Laws.Presentable.crci
  | crcu payload => exact Laws.Presentable.crcu payload
  | crcr => exact Laws.Presentable.crcr
  | stat => exact Laws.Presentable.stat

/-- Settles O1: the encoding can be presented with `RSV = 0`, and the opcode map gives the command for its fields. -/
theorem decodeInvertsEncode : Obligations.DecodeInvertsEncode := by
  intro i hi
  obtain ⟨hpresent, hrsv, hop⟩ := encode_presentable i hi
  obtain ⟨-, -, harg⟩ := Laws.Presentable.fields_of_commandWord i.opcode i.arg
  refine decode_eq_instr_iff.2 ⟨beq_iff_eq.1 hpresent, hrsv, ?_⟩
  rw [hop]
  exact (congrArg (decodeOpcode _ · _) harg).trans (decodeOpcode_of_instr i)

/-- Settles O3: fourteen closed words, each decoded by evaluation. -/
theorem opcodeMapWordsDecode : Obligations.OpcodeMapWordsDecode := by
  unfold Obligations.OpcodeMapWordsDecode
  decide

/-! ### From a word to its command -/

/-- A command is well formed when its payload is no longer than `ARG` can say, whichever command it is (R90). -/
theorem Instr.wellFormed_iff (i : Instr) : i.wellFormed = true ↔ i.payload.length < 2 ^ 24 := by
  cases i with
  | fill | crcu => exact decide_eq_true_iff
  | _ => simp [Instr.wellFormed, Instr.payload]

/-- No word asks for more payload bytes than `ARG` can say (R88). -/
theorem payloadLength_lt (cmd : Word) : payloadLength cmd < 2 ^ 24 := by
  unfold payloadLength
  split
  · exact (argField cmd).isLt
  · decide

/-- The command a transaction decodes to has the opcode, operand and payload the transaction carries (R89, R92). -/
theorem fields_of_decode {t : Transaction} {i : Instr} (h : decode t = .instr i) :
    i.opcode = opField t.cmd ∧ i.arg = argField t.cmd ∧ i.payload = t.payload := by
  obtain ⟨hlen, -, hop⟩ := decode_eq_instr_iff.1 h
  exact fields_of_decodeOpcode hop hlen

/-- `CMD[31:24]` of a transaction is that of the command it decodes to. -/
theorem topByte_of_decode {t : Transaction} {i : Instr} (h : decode t = .instr i) : i.topByte = topByte t.cmd := by
  obtain ⟨-, hrsv, -⟩ := decode_eq_instr_iff.1 h
  obtain ⟨hop, -, -⟩ := fields_of_decode h
  rw [Instr.topByte, hop, topByte_eq_append, hrsv]

/-- Settles O2: the transaction's three fields and its payload are those of the command's encoding. -/
theorem decodedCommandReencodes : Obligations.DecodedCommandReencodes := by
  intro t i h
  obtain ⟨hlen, hrsv, -⟩ := decode_eq_instr_iff.1 h
  obtain ⟨hop, harg, hpayload⟩ := fields_of_decode h
  refine ⟨(Instr.wellFormed_iff i).2 ?_, ?_⟩
  · rw [hpayload, hlen]
    exact payloadLength_lt t.cmd
  · rw [encode, hop, harg, hpayload, commandWord_fields hrsv]

/-- Settles O4: with the payload length given, only `RSV` and the opcode map decide (R98, cases 1, 3 and 4). -/
theorem wordDecodesUnlessReserved : Obligations.WordDecodesUnlessReserved := by
  intro t hlen
  refine ⟨?_, ?_⟩
  · simp only [decode_eq_instr_iff, exists_and_left, exists_decodeOpcode_iff]
    tauto
  · obtain ⟨hne, -⟩ | ⟨-, -, h⟩ | ⟨-, -, i, -, h⟩ := decode_cases t
    · exact absurd hlen hne
    · exact .inr h
    · exact .inl ⟨i, h⟩

end Sys2Proof
end

section
/-! PROOF. What a step does with a transaction that is illegal or cannot be presented (spec/30_encoding.md R88, R98;
spec/45_system.md R242; spec/60_exceptions.md R253). -/

namespace Sys2Proof.Machine

/-- A step on an illegal word is the block's answer to it, with nothing around it. -/
theorem step_of_decode_illegal {s : State} {t : Transaction} {rest : List HostInput} {top : Byte}
    (hs : s.inbox = .transaction t :: rest) (ht : decode t = .illegal top) :
    step s = illegalWord top (s.dequeue rest) := by
  simp only [step, takeInput, hs, ht]

/-- A step on a transaction that cannot be presented is refused. -/
theorem step_of_decode_notPresentable {s : State} {t : Transaction} {rest : List HostInput}
    (hs : s.inbox = .transaction t :: rest) (ht : decode t = .notPresentable) :
    step s = .refused .payloadMismatch := by
  simp only [step, takeInput, hs, ht]

/-- Settles O7: such a transaction cannot be presented. -/
theorem unpresentableTransactionRefused : Obligations.UnpresentableTransactionRefused := by
  intro s t rest hs hne
  obtain ⟨-, h⟩ | ⟨hlen, -, -⟩ | ⟨hlen, -, -⟩ := decode_cases t
  · exact step_of_decode_notPresentable hs h
  · exact absurd hlen hne
  · exact absurd hlen hne

/-- Without the CRC unit the commands of opcodes 0xB, 0xC and 0xD run as illegal words (R98 case 2, R242). -/
theorem exec_of_crcUnit_absent {i : Instr} {s : State} (hs : s.Healthy) (hcrc : s.cfg.crcUnit = .absent)
    (hi : i.opcode ∈ [0xB#4, 0xC#4, 0xD#4]) :
    exec i s = .next (s.raiseFault .illegalCommand (i.topByte.zeroExtend 24)) := by
  have habsent : s.crcPresent = false := by simp [State.crcPresent, hcrc]
  have illegal (command : Result) : preamble i.topByte s.crcPresent s command =
      .next (s.raiseFault .illegalCommand (i.topByte.zeroExtend 24)) := by
    rw [habsent, preamble_illegal _ s command hs]
  cases i with
  | crci | crcu | crcr => exact illegal _
  | _ => simp [Instr.opcode] at hi

/-- Settles O5: the word decodes to an illegal one in cases 1, 3 and 4 of R98, and to a command that runs as one in
case 2. -/
theorem illegalWordFaults : Obligations.IllegalWordFaults := by
  intro s t rest hs hin hlen hill
  have hd : (s.dequeue rest).Healthy := hs
  obtain ⟨hne, -⟩ | ⟨-, -, h⟩ | ⟨-, hrsv, i, hop, h⟩ := decode_cases t
  · exact absurd hlen hne
  · rw [step_of_decode_illegal hin h]
    exact preamble_illegal _ _ _ hd
  · -- The word decodes, so of the four cases only the missing CRC unit is left.
    obtain ⟨hne0, hneF, harg⟩ := (exists_decodeOpcode_iff _ _ _).1 ⟨i, hop⟩
    obtain ⟨hcrc, habs⟩ : opField t.cmd ∈ [0xB#4, 0xC#4, 0xD#4] ∧ s.cfg.crcUnit = .absent := by tauto
    rw [stepRunsDecodedCommand s t rest i hin h, ← topByte_of_decode h]
    rw [← (fields_of_decode h).1] at hcrc
    exact exec_of_crcUnit_absent hd habs hcrc

end Sys2Proof.Machine
end

section
/-! PROOF. From a state that satisfies the invariant every presentable transaction is answered by exactly one response,
with the number of words R93 gives it (spec/30_encoding.md R88, R93, R97). -/

namespace Sys2Proof.Machine

/-- A response has the number of extra words that R93 gives a command of opcode `op`: four for an OK answer to DATA or
BODY, none otherwise. -/
def Response.SizedFor (r : Response) (op : BitVec 4) : Prop :=
  r.extra.length = if r.rcode = .ok ∧ (op = 0x6#4 ∨ op = 0x9#4) then 4 else 0

theorem okResponse_sizedFor (v : Count) {op : BitVec 4} (h : ¬ (op = 0x6#4 ∨ op = 0x9#4)) :
    (okResponse v).SizedFor op := (if_neg fun hok => h hok.2).symm

theorem viewResponse_sizedFor (v : Slice × Slice) {op : BitVec 4} (h : op = 0x6#4 ∨ op = 0x9#4) :
    (viewResponse v).SizedFor op := (if_pos ⟨rfl, h⟩).symm

theorem faultedResponse_sizedFor (c : FaultCause) (info : Count) (op : BitVec 4) :
    (faultedResponse c info).SizedFor op := (if_neg fun hok => nomatch hok.1).symm

theorem ReadOutcome.response_sizedFor (out : ReadOutcome) (op : BitVec 4) : out.response.SizedFor op := by
  cases out <;> exact (if_neg fun hok => nomatch hok.1).symm

/-- A result is a next state that has taken no further input and given one response, sized for the opcode `op`. -/
def AnsweredOnce (s : State) (op : BitVec 4) (result : Result) : Prop :=
  ∃ u r, result = .next u ∧ u.inbox = s.inbox ∧ u.outbox = s.outbox ++ [r] ∧ r.SizedFor op

/-- The writes of a command touch neither the host's inputs nor the responses. -/
theorem Writes.ports_eq {s u : State} (h : Writes s u) : u.inbox = s.inbox ∧ u.outbox = s.outbox := by
  cases h with
  | classify out _ => cases out <;> exact ⟨rfl, rfl⟩
  | evict n _ => simp
  | nothing | append | draw | crc | spend => exact ⟨rfl, rfl⟩

namespace AnsweredOnce

variable {s : State} {op : BitVec 4}

/-- A command that writes and then answers. -/
theorem answer {u : State} {r : Response} (hu : Writes s u) (hr : r.SizedFor op) :
    AnsweredOnce s op (.next (u.respond r)) := by
  obtain ⟨hin, hout⟩ := hu.ports_eq
  exact ⟨_, r, rfl, hin, congrArg (· ++ [r]) hout, hr⟩

/-- A command that raises a fault (R251). -/
theorem raiseFault (c : FaultCause) (info : Count) : AnsweredOnce s op (.next (s.raiseFault c info)) :=
  ⟨_, _, rfl, rfl, rfl, faultedResponse_sizedFor c info op⟩

/-- The preamble answers where it does not run the command (R258). -/
theorem of_preamble {top : Byte} {legal : Bool} {command : Result} (h : legal = true → AnsweredOnce s op command) :
    AnsweredOnce s op (preamble top legal s command) := by
  obtain ⟨-, hp⟩ | ⟨-, hlegal, hp⟩ | ⟨-, -, hp⟩ := preamble_cases top legal s command <;> rw [hp]
  · exact ⟨_, _, rfl, rfl, rfl, faultedResponse_sizedFor _ _ op⟩
  · exact h hlegal
  · exact raiseFault _ _

/-- A command whose own rule only writes and answers OK. -/
theorem of_ok {top : Byte} {legal : Bool} {u : State} {v : Count} (hu : Writes s u)
    (hop : ¬ (op = 0x6#4 ∨ op = 0x9#4)) :
    AnsweredOnce s op (preamble top legal s (.next (u.respond (okResponse v)))) :=
  .of_preamble fun _ => .answer hu (okResponse_sizedFor v hop)

/-- The token check answers where it does not run the command (R255). -/
theorem of_needToken {opcode : BitVec 4} {command : Result} (h : AnsweredOnce s op command) :
    AnsweredOnce s op (needToken opcode s command) := by
  obtain ⟨-, hn⟩ | ⟨-, hn⟩ := needToken_cases opcode s command <;> rw [hn]
  · exact h
  · exact raiseFault _ _

end AnsweredOnce

theorem illegalWord_answeredOnce (top : Byte) (s : State) (op : BitVec 4) :
    AnsweredOnce s op (illegalWord top s) := .of_preamble nofun

theorem execConsume_answeredOnce (n : Count) (s : State) {op : BitVec 4} (hop : ¬ (op = 0x6#4 ∨ op = 0x9#4)) :
    AnsweredOnce s op (execConsume n s) := by
  refine .of_preamble fun _ => ?_
  split
  · exact .raiseFault _ _
  · next hn => exact .answer (.evict _ (Nat.not_lt.1 hn)) (okResponse_sizedFor _ hop)

/-- RDB finds a byte in every cell of the content, since the invariant has one listed there. -/
theorem execRdb_answeredOnce {s : State} (h : s.Inv) (i : Count) {op : BitVec 4}
    (hop : ¬ (op = 0x6#4 ∨ op = 0x9#4)) : AnsweredOnce s op (execRdb i s) := by
  refine .of_preamble fun _ => ?_
  split
  · exact .raiseFault _ _
  · next hN =>
    split
    · next hocc =>
      obtain ⟨b, hb⟩ := Option.isSome_iff_exists.1 ((h.store_cells i.toNat).2 ⟨Nat.not_le.1 hN, hocc⟩)
      rw [hb]
      exact .answer .nothing (okResponse_sizedFor _ hop)
    · exact .answer .draw (okResponse_sizedFor _ hop)

/-- With every byte of the content there, READ finds an outcome. -/
theorem State.Inv.exists_readOutcome {s : State} (h : s.Inv) : ∃ out, s.readOutcome = some out := by
  obtain ⟨content, hc⟩ := State.Inv.exists_content s h
  unfold State.readOutcome
  split
  · exact ⟨_, rfl⟩
  · rw [hc]; exact ⟨_, rfl⟩

theorem execRead_answeredOnce {s : State} (h : s.Inv) (op : BitVec 4) : AnsweredOnce s op (execRead s) := by
  obtain ⟨out, hout⟩ := h.exists_readOutcome
  refine .of_preamble fun _ => ?_
  rw [hout]
  exact .answer (.classify out hout) (out.response_sizedFor op)

/-- Every command is answered once. -/
theorem exec_answeredOnce {s : State} (h : s.Inv) (i : Instr) : AnsweredOnce s i.opcode (exec i s) := by
  cases i with
  | cap => exact .of_ok .nothing (by decide)
  | len => exact .of_ok .nothing (by decide)
  | full => exact .of_ok .nothing (by decide)
  | fill payload => exact .of_ok (.append _ (by simp)) (by simp [Instr.opcode])
  | consume n => exact execConsume_answeredOnce n s (by simp [Instr.opcode])
  | data => exact .of_preamble fun _ => .answer .nothing (viewResponse_sizedFor _ (by decide))
  | rdb index => exact execRdb_answeredOnce h index (by simp [Instr.opcode])
  | read => exact execRead_answeredOnce h _
  | body => exact .of_preamble fun _ => .of_needToken (.answer .nothing (viewResponse_sizedFor _ (by decide)))
  | conv => exact .of_preamble fun _ => .of_needToken (.answer .spend (okResponse_sizedFor _ (by decide)))
  | crci => exact .of_ok (.crc _) (by decide)
  | crcu payload => exact .of_ok (.crc _) (by simp [Instr.opcode])
  | crcr => exact .of_ok .nothing (by decide)
  | stat => exact .of_ok .nothing (by decide)

/-- Settles O16: by what the transaction decodes to, with the opcode of a command read off the word. -/
theorem transactionAnsweredOnce : Obligations.TransactionAnsweredOnce := by
  intro s t rest hinv hin hlen
  obtain ⟨hne, -⟩ | ⟨-, -, h⟩ | ⟨-, -, i, -, h⟩ := decode_cases t
  · exact absurd hlen hne
  · rw [step_of_decode_illegal hin h]
    exact illegalWord_answeredOnce _ _ _
  · obtain ⟨hop, -, -⟩ := fields_of_decode h
    rw [stepRunsDecodedCommand s t rest i hin h, ← hop]
    exact exec_answeredOnce (hinv.dequeue rest) i

end Sys2Proof.Machine
end

section
/-! PROOF. The buffer controller's commands on a healthy block: what each answers, which cells it writes and what it
leaves alone (spec/40_buffer.md R120 to R126). -/

namespace Sys2Proof.Machine

/-! ### The queries (R120 to R122, R125) -/

/-- Settles O18: the preamble runs the command, whose rule is the answer; N is below 2^24 (R5). -/
theorem bufferQueriesAnswer : Obligations.BufferQueriesAnswer := by
  intro s hs
  have hfull : (if s.isFull then 1#24 else 0#24) = if s.len.toNat = s.cfg.capacity then 1#24 else 0#24 :=
    if_congr decide_eq_true_iff rfl rfl
  refine ⟨preamble_healthy _ s _ hs, toNat_count _ s.capacity_lt, preamble_healthy _ s _ hs, ?_⟩
  rw [← hfull]
  exact preamble_healthy _ s _ hs

/-- The start of a descriptor, the empty one's included (R55). -/
theorem slice_start (start len : Nat) : (slice start len).start = if 0 < len then start else 0 := by
  unfold slice; split <;> rfl

/-- Settles O25: the answer's words are the fields of the view's two descriptors. -/
theorem dataAnswersView : Obligations.DataAnswersView := by
  intro s hs
  have hstart : BitVec.ofNat 24 s.view.1.start = if 0 < s.firstLen then s.head else 0#24 := by
    rw [s.view_eq, slice_start, apply_ite (BitVec.ofNat 24), BitVec.ofNat_toNat, BitVec.setWidth_eq]
  rw [show exec .data s = _ from preamble_healthy _ s _ hs, viewResponse, hstart, s.view_eq, slice_len, slice_len,
    slice_zero_start]
  rfl

/-! ### FILL (R123) -/

/-- Settles O19: the store loop runs over the accepted bytes, at most N of them, so no cell is written twice. -/
theorem fillStoresPayload : Obligations.FillStoresPayload := by
  intro s payload hs
  have hacc : (payload.take (min payload.length s.free)).length = min payload.length s.free := by simp
  have hfree : s.free ≤ s.capacity := Nat.sub_le _ _
  refine ⟨(s.appendBytes (payload.take (min payload.length s.free))).store, ?_, fun j hj => ?_, fun a ha => ?_⟩
  · rw [show exec (.fill payload) s = _ from preamble_healthy _ s _ hs, State.appendBytes, hacc]
    rfl
  · change j < min payload.length s.free at hj
    rw [State.appendBytes_store]
    exact (Memory.read_writeRun_target _ _ _ _ j (by omega) (by omega)).trans (List.getElem?_take_of_lt hj)
  · exact Memory.read_writeRun_other _ _ _ _ a fun j hj => ha j (hj.trans_eq hacc)

/-! ### CONSUME (R124) -/

/-- CONSUME of no more than the content evicts, clears the token and answers. -/
theorem exec_consume_of_le {s : State} {n : Count} (hs : s.Healthy) (hn : n.toNat ≤ s.len.toNat) :
    exec (.consume n) s = .next ((s.evict n.toNat).clearToken.respond (okResponse 0#24)) :=
  (preamble_healthy _ s _ hs).trans (if_neg (Nat.not_lt.2 hn))

/-- Settles O21: under RING only the evicted cells, those at an offset below `n`, are forgotten. -/
theorem consumeRingMovesHead : Obligations.ConsumeRingMovesHead := by
  intro s n hs hl hn
  refine ⟨s.store.forget fun a => decide (s.offsetOf a < n.toNat), ?_, fun a ha => ?_⟩
  · rw [exec_consume_of_le hs hn, State.evict, hl]
    rfl
  · rw [Memory.read_forget, if_neg (by simpa using ha)]

/-- Settles O22: under CONTIGUOUS the store is shifted down by `n` below LEN and kept from LEN up. -/
theorem consumeContiguousShifts : Obligations.ConsumeContiguousShifts := by
  intro s n hs hl hwf hn
  refine ⟨s.store.shiftDown n.toNat s.len.toNat, ?_, fun i hi => ?_, fun a ha => ?_⟩
  · rw [exec_consume_of_le hs hn, State.evict, hl]
    rfl
  · rw [Memory.read_shiftDown _ _ _ hwf, if_pos (by omega)]
  · rw [Memory.read_shiftDown _ _ _ hwf, if_neg (by omega), if_neg (by omega)]

/-! ### RDB (R126) -/

/-- Settles O28: such a cell holds the content's byte at its offset, so RDB finds it. -/
theorem rdbReadsContentByte : Obligations.RdbReadsContentByte := by
  intro s i content h hs hc hN hoff
  have hholds := h.holds hc
  obtain ⟨b, hb⟩ : ∃ b, content[s.offsetOf i.toNat]? = some b :=
    ⟨_, List.getElem?_eq_getElem (hoff.trans_eq hholds.length_eq.symm)⟩
  have hread : s.store.read i.toNat = some b := (hholds.read_eq _).trans ((if_pos hN).trans hb)
  have hocc : s.occupied i.toNat = true := decide_eq_true hoff
  refine ⟨b, hb, (preamble_healthy _ s _ hs).trans ((if_neg (Nat.not_le.2 hN)).trans ((if_pos hocc).trans ?_))⟩
  rw [hread]
  rfl

end Sys2Proof.Machine
end

section
/-! PROOF. Two blocks that differ in LAYOUT alone: every command keeps them matched and answers both alike
(spec/40_buffer.md R129, spec/10_state.md R34). -/

namespace Sys2Proof.Machine

/-! ### The content after FILL and CONSUME (R34) -/

theorem State.Inv.appendBytes_content {s : State} (h : s.Inv) {cs bytes : List Byte} (hc : s.content = some cs)
    (hfree : bytes.length ≤ s.free) : (s.appendBytes bytes).content = some (cs ++ bytes) := by
  have hle := h.len_le
  have hfit : s.len.toNat + bytes.length ≤ s.capacity := by unfold State.free at hfree; omega
  exact ((h.holds hc).appendBytes h.head_lt hfit).content_eq ((State.appendBytes_len_toNat hfit).trans_le hfit)
    h.head_lt h.head_contiguous

theorem State.Inv.evict_content {s : State} (h : s.Inv) {cs : List Byte} (hc : s.content = some cs) {n : Nat}
    (hn : n ≤ s.len.toNat) : (s.evict n).content = some (cs.drop n) := by
  obtain ⟨hhead, hcont⟩ := h.evict_head n
  refine ((h.holds hc).evict h hn).content_eq ?_ (by simpa using hhead) (by simpa using hcont)
  rw [State.evict_len_toNat, State.evict_capacity]
  exact (Nat.sub_le _ _).trans h.len_le

/-- CONSUME writes the store, HEAD and LEN of the buffer, and nothing else (R124). -/
theorem State.evict_frame (s : State) (n : Nat) :
    ∃ m hd, s.evict n = { s with store := m, head := hd, len := BitVec.ofNat 24 (s.len.toNat - n) } := by
  unfold State.evict
  split <;> exact ⟨_, _, rfl⟩

/-! ### What matched states have in common -/

namespace LayoutMatch

variable {s u : State}

theorem capacity_eq (h : LayoutMatch s u) : s.capacity = u.capacity := h.capacity

theorem free_eq (h : LayoutMatch s u) : s.free = u.free := by
  rw [State.free, h.capacity_eq, h.len]; rfl

theorem isEmpty_eq (h : LayoutMatch s u) : s.isEmpty = u.isEmpty := by
  rw [State.isEmpty, h.len]; rfl

theorem isFull_eq (h : LayoutMatch s u) : s.isFull = u.isFull := by
  rw [State.isFull, h.capacity_eq, h.len]; rfl

theorem crcPresent_eq (h : LayoutMatch s u) : s.crcPresent = u.crcPresent := by
  rw [State.crcPresent, h.crcUnit]; rfl

/-- READ finds the same in both, since it sees the content alone (R172). -/
theorem readOutcome_eq (h : LayoutMatch s u) : s.readOutcome = u.readOutcome := by
  rw [State.readOutcome, h.len, h.content, h.capacity_eq, h.crcVariant]; rfl

theorem healthy (h : LayoutMatch s u) (hs : s.Healthy) : u.Healthy := h.faultCause.symm.trans hs

/-- The status words differ at most in bit 3, `LAYOUT` (R29). -/
theorem status_getLsbD (h : LayoutMatch s u) {k : Nat} (hk : k ≠ 3) : s.status.getLsbD k = u.status.getLsbD k := by
  simp only [State.status, BitVec.getLsbD_append, h.isEmpty_eq, h.isFull_eq, h.tokValid, h.crcVariant, h.crcPresent_eq]
  by_cases hlow : k < 3
  · interval_cases k <;> rfl
  · have hlayout : ¬ k - 1 - 1 - 1 < 1 := by omega
    simp only [hlayout, if_false]

/-! ### What keeps states matched -/

/-- The match speaks of no draw, input or response. -/
theorem frame (h : LayoutMatch s u) (d e : Nat) (o p : List Response) :
    LayoutMatch { s with draws := d, outbox := o } { u with draws := e, outbox := p } :=
  { h with }

theorem respond (h : LayoutMatch s u) (r q : Response) : LayoutMatch (s.respond r) (u.respond q) :=
  h.frame s.draws u.draws _ _

theorem raiseFault (h : LayoutMatch s u) (c : FaultCause) (info : Count) :
    LayoutMatch (s.raiseFault c info) (u.raiseFault c info) :=
  { h with faultCause := rfl, faultInfo := rfl }

theorem clearToken (h : LayoutMatch s u) : LayoutMatch s.clearToken u.clearToken :=
  { h with tokValid := rfl, tokBodyLen := rfl }

theorem setCrcAcc (h : LayoutMatch s u) (c : U16) : LayoutMatch (s.setCrcAcc c) (u.setCrcAcc c) :=
  { h with crcAcc := rfl }

theorem updateToken (h : LayoutMatch s u) (out : ReadOutcome) : LayoutMatch (s.updateToken out) (u.updateToken out) := by
  cases out with
  | incomplete => exact h.clearToken
  | junk _ _ => exact h.clearToken
  | frame L => exact { h with tokValid := rfl, tokBodyLen := rfl }

/-- FILL appends the same bytes to both contents. -/
theorem appendBytes (h : LayoutMatch s u) (hs : s.Inv) (hu : u.Inv) {bytes : List Byte} (hfree : bytes.length ≤ s.free) :
    LayoutMatch (s.appendBytes bytes) (u.appendBytes bytes) := by
  obtain ⟨cs, hc⟩ := State.Inv.exists_content s hs
  exact {
    h with
    content := (hs.appendBytes_content hc hfree).trans
      (hu.appendBytes_content (h.content.symm.trans hc) (hfree.trans_eq h.free_eq)).symm
    len := by rw [State.appendBytes_len, State.appendBytes_len, h.len] }

/-- CONSUME drops as many bytes of both contents. -/
theorem evict (h : LayoutMatch s u) (hs : s.Inv) (hu : u.Inv) {n : Nat} (hn : n ≤ s.len.toNat) :
    LayoutMatch (s.evict n) (u.evict n) := by
  obtain ⟨cs, hc⟩ := State.Inv.exists_content s hs
  have hcontent : (s.evict n).content = (u.evict n).content :=
    (hs.evict_content hc hn).trans (hu.evict_content (h.content.symm.trans hc) (h.len ▸ hn)).symm
  obtain ⟨m, hd, hs'⟩ := s.evict_frame n
  obtain ⟨m', hd', hu'⟩ := u.evict_frame n
  rw [hs', hu'] at hcontent ⊢
  exact { h with content := hcontent, len := by rw [h.len] }

end LayoutMatch

/-! ### Responses that are alike -/

/-- What R129 allows two blocks that differ in LAYOUT alone to answer to one command `i`. -/
structure Response.Alike (i : Instr) (r q : Response) : Prop where
  rcode_eq : r.rcode = q.rcode
  kind_eq : r.kind = q.kind
  eq_of_other : i ≠ .data → i ≠ .body → (∀ a, i ≠ .rdb a) → i ≠ .stat → r = q
  eq_of_faulted : r.rcode = .faulted → r = q
  descriptors : i = .data ∨ i = .body →
    r.value = q.value ∧ r.extra.length = q.extra.length ∧
      ∀ st1 len1 st2 len2 st1' len1' st2' len2', r.extra = [st1, len1, st2, len2] →
        q.extra = [st1', len1', st2', len2'] → len1 + len2 = len1' + len2'
  status : i = .stat → r.extra = q.extra ∧ ∀ k, k ≠ 3 → r.value.getLsbD k = q.value.getLsbD k

namespace Response.Alike

theorem refl (i : Instr) (r : Response) : r.Alike i r where
  rcode_eq := rfl
  kind_eq := rfl
  eq_of_other _ _ _ _ := rfl
  eq_of_faulted _ := rfl
  descriptors _ := ⟨rfl, rfl, fun _ _ _ _ _ _ _ _ h h' => by cases h.symm.trans h'; rfl⟩
  status _ := ⟨rfl, fun _ _ => rfl⟩

/-- Descriptors that cover as many bytes. -/
theorem view {i : Instr} (hi : i = .data ∨ i = .body) {v w : Slice × Slice}
    (h : v.1.len + v.2.len = w.1.len + w.2.len) : (viewResponse v).Alike i (viewResponse w) where
  rcode_eq := rfl
  kind_eq := rfl
  eq_of_other hdata hbody _ _ := (hi.elim hdata hbody).elim
  eq_of_faulted := nofun
  descriptors _ := by
    refine ⟨rfl, rfl, fun _ _ _ _ _ _ _ _ hr hq => ?_⟩
    cases hr
    cases hq
    rw [← BitVec.ofNat_add, ← BitVec.ofNat_add, h]
  status := by rintro rfl; cases hi <;> contradiction

/-- The bytes that RDB answers may differ: the same cell need not hold the same logical byte. -/
theorem rdb (a v w : Count) : (okResponse v).Alike (.rdb a) (okResponse w) where
  rcode_eq := rfl
  kind_eq := rfl
  eq_of_other _ _ hrdb _ := (hrdb a rfl).elim
  eq_of_faulted := nofun
  descriptors := by rintro (h | h) <;> cases h
  status := nofun

theorem stat {v w : Count} (h : ∀ k, k ≠ 3 → v.getLsbD k = w.getLsbD k) : (okResponse v).Alike .stat (okResponse w) where
  rcode_eq := rfl
  kind_eq := rfl
  eq_of_other _ _ _ hstat := (hstat rfl).elim
  eq_of_faulted := nofun
  descriptors := by rintro (h | h) <;> cases h
  status _ := ⟨rfl, h⟩

end Response.Alike

/-! ### Commands that are answered alike -/

/-- The results of one command `i` on `s` and on `u`: next states that match, each with one response, and these alike. -/
def AnsweredAlike (i : Instr) (s u : State) (a b : Result) : Prop :=
  ∃ s' u' r q, a = .next s' ∧ b = .next u' ∧ LayoutMatch s' u' ∧ s'.outbox = s.outbox ++ [r] ∧
    u'.outbox = u.outbox ++ [q] ∧ Response.Alike i r q

namespace AnsweredAlike

variable {s u : State} {i : Instr}

/-- Writes that leave the states matched, then answers that are alike. -/
theorem answer {s' u' : State} {r q : Response} (h : LayoutMatch s' u') (hs : Writes s s') (hu : Writes u u')
    (hr : r.Alike i q) : AnsweredAlike i s u (.next (s'.respond r)) (.next (u'.respond q)) :=
  ⟨_, _, r, q, rfl, rfl, h.respond r q, congrArg (· ++ [r]) hs.ports_eq.2, congrArg (· ++ [q]) hu.ports_eq.2, hr⟩

/-- Both raise one fault. -/
theorem raiseFault (h : LayoutMatch s u) (c : FaultCause) (info : Count) :
    AnsweredAlike i s u (.next (s.raiseFault c info)) (.next (u.raiseFault c info)) :=
  ⟨_, _, _, _, rfl, rfl, h.raiseFault c info, rfl, rfl, .refl i _⟩

/-- Both stand behind one preamble: faulted they repeat the same pair, and a word is legal on both or on neither. -/
theorem of_preamble (h : LayoutMatch s u) {top : Byte} {legal legal' : Bool} (hlegal : legal = legal') {a b : Result}
    (hab : s.Healthy → AnsweredAlike i s u a b) :
    AnsweredAlike i s u (preamble top legal s a) (preamble top legal' u b) := by
  subst hlegal
  by_cases hs : s.Healthy
  · cases legal with
    | true => rw [preamble_healthy top s a hs, preamble_healthy top u b (h.healthy hs)]; exact hab hs
    | false => rw [preamble_illegal top s a hs, preamble_illegal top u b (h.healthy hs)]; exact raiseFault h _ _
  · rw [preamble_faulted top legal s a hs, preamble_faulted top legal u b (h.faultCause ▸ hs), State.answerFaulted,
      State.answerFaulted, h.faultCause, h.faultInfo]
    exact answer h .nothing .nothing (.refl i _)

/-- A command whose own rule only writes and gives one answer. -/
theorem of_answer (h : LayoutMatch s u) {top : Byte} {legal legal' : Bool} (hlegal : legal = legal') {s' u' : State}
    (h' : LayoutMatch s' u') (hs : Writes s s') (hu : Writes u u') {r q : Response} (hr : r.Alike i q) :
    AnsweredAlike i s u (preamble top legal s (.next (s'.respond r))) (preamble top legal' u (.next (u'.respond q))) :=
  of_preamble h hlegal fun _ => answer h' hs hu hr

/-- The token is valid in both or in neither (R255). -/
theorem of_needToken (h : LayoutMatch s u) {opcode : BitVec 4} {a b : Result} (hab : AnsweredAlike i s u a b) :
    AnsweredAlike i s u (needToken opcode s a) (needToken opcode u b) := by
  unfold needToken
  rw [h.tokValid]
  split
  · exact hab
  · exact raiseFault h _ _

end AnsweredAlike

/-! ### The commands -/

variable {s u : State}

theorem execFill_answeredAlike (hs : s.Inv) (hu : u.Inv) (h : LayoutMatch s u) (payload : List Byte) :
    AnsweredAlike (.fill payload) s u (execFill payload s) (execFill payload u) := by
  have hacc : (payload.take (min payload.length s.free)).length ≤ s.free := by simp
  unfold execFill
  rw [← h.free_eq]
  exact .of_answer h rfl (h.appendBytes hs hu hacc).clearToken (.append _ hacc) (.append _ (hacc.trans_eq h.free_eq))
    (.refl _ _)

theorem execConsume_answeredAlike (hs : s.Inv) (hu : u.Inv) (h : LayoutMatch s u) (n : Count) :
    AnsweredAlike (.consume n) s u (execConsume n s) (execConsume n u) := by
  refine .of_preamble h rfl fun _ => ?_
  rw [← h.len]
  split
  · exact .raiseFault h _ _
  · next hn =>
    have hn : n.toNat ≤ s.len.toNat := Nat.not_lt.1 hn
    exact .answer (h.evict hs hu hn).clearToken (.evict _ hn) (.evict _ (h.len ▸ hn)) (.refl _ _)

/-- RDB of a cell of the store, inside the content or not, answers a byte and writes at most the draw count. -/
theorem exec_rdb_of_lt (h : s.Inv) (hs : s.Healthy) {a : Count} (ha : a.toNat < s.capacity) :
    ∃ d v, exec (.rdb a) s = .next { s with draws := d, outbox := s.outbox ++ [okResponse v] } := by
  rcases Nat.lt_or_ge (s.offsetOf a.toNat) s.len.toNat with hin | hout
  · obtain ⟨content, hc⟩ := State.Inv.exists_content s h
    obtain ⟨b, -, hb⟩ := rdbReadsContentByte s a content h hs hc ha hin
    exact ⟨_, _, hb⟩
  · exact ⟨_, _, rdbOutsideContentDraws s a hs ha hout⟩

theorem execRdb_answeredAlike (hs : s.Inv) (hu : u.Inv) (h : LayoutMatch s u) (a : Count) :
    AnsweredAlike (.rdb a) s u (execRdb a s) (execRdb a u) := by
  refine .of_preamble h rfl fun hh => ?_
  rcases Nat.lt_or_ge a.toNat s.capacity with hlt | hge
  · obtain ⟨d, v, hsv⟩ := exec_rdb_of_lt hs hh hlt
    obtain ⟨e, w, huw⟩ := exec_rdb_of_lt hu (h.healthy hh) (hlt.trans_eq h.capacity_eq)
    exact ⟨_, _, _, _, (preamble_healthy _ s _ hh).symm.trans hsv, (preamble_healthy _ u _ (h.healthy hh)).symm.trans huw,
      h.frame d e _ _, rfl, rfl, .rdb a v w⟩
  · rw [if_pos hge, if_pos (h.capacity_eq.symm.trans_le hge)]
    exact .raiseFault h _ _

theorem execRead_answeredAlike (hs : s.Inv) (h : LayoutMatch s u) :
    AnsweredAlike .read s u (execRead s) (execRead u) := by
  obtain ⟨out, hout⟩ := hs.exists_readOutcome
  have hout' := h.readOutcome_eq.symm.trans hout
  refine .of_preamble h rfl fun _ => ?_
  rw [hout, hout']
  exact .answer (h.updateToken out) (.classify out hout) (.classify out hout') (.refl _ _)

/-- A sub-range covers the bytes asked for (R56). -/
theorem State.subrange_lengths (s : State) {lo hi : Nat} (h : lo ≤ hi) :
    (s.subrange lo hi).1.len + (s.subrange lo hi).2.len = hi - lo := by
  rw [s.subrange_eq, slice_len, slice_len]
  omega

/-- Every command is answered alike. -/
theorem exec_answeredAlike (hs : s.Inv) (hu : u.Inv) (h : LayoutMatch s u) (i : Instr) :
    AnsweredAlike i s u (exec i s) (exec i u) := by
  have query {v w : Count} {legal legal' : Bool} (hlegal : legal = legal') (hvw : v = w) :
      AnsweredAlike i s u (preamble i.topByte legal s (.next (s.respond (okResponse v))))
        (preamble i.topByte legal' u (.next (u.respond (okResponse w)))) :=
    .of_answer h hlegal h .nothing .nothing (hvw ▸ .refl i _)
  cases i with
  | cap => exact query rfl (by rw [h.capacity_eq])
  | len => exact query rfl h.len
  | full => exact query rfl (by rw [h.isFull_eq])
  | fill payload => exact execFill_answeredAlike hs hu h payload
  | consume n => exact execConsume_answeredAlike hs hu h n
  | data =>
    exact .of_answer h rfl h .nothing .nothing (.view (.inl rfl) (by rw [s.view_lengths, u.view_lengths, h.len]))
  | rdb a => exact execRdb_answeredAlike hs hu h a
  | read => exact execRead_answeredAlike hs h
  | body =>
    refine .of_preamble h rfl fun _ => .of_needToken h (.answer h .nothing .nothing (.view (.inr rfl) ?_))
    rw [s.subrange_lengths (Nat.le_add_right _ _), u.subrange_lengths (Nat.le_add_right _ _), h.tokBodyLen]
  | conv =>
    refine .of_preamble h rfl fun _ => .of_needToken h (.answer h.clearToken .spend .spend ?_)
    rw [h.tokBodyLen]
    exact .refl _ _
  | crci =>
    refine .of_answer h h.crcPresent_eq ?_ (.crc _) (.crc _) (.refl _ _)
    rw [h.crcVariant]
    exact h.setCrcAcc _
  | crcu payload =>
    refine .of_answer h h.crcPresent_eq ?_ (.crc _) (.crc _) (.refl _ _)
    rw [h.crcVariant, h.crcAcc]
    exact h.setCrcAcc _
  | crcr => exact query h.crcPresent_eq (by rw [h.crcAcc])
  | stat => exact .of_answer h rfl h .nothing .nothing (.stat fun _ hk => h.status_getLsbD hk)

/-- Settles O58: every command is answered alike, said clause by clause. -/
theorem layoutIndependence : Obligations.LayoutIndependence := by
  intro s u i hs hu h
  obtain ⟨s', u', r, q, hs', hu', h', hr, hq, hrq⟩ := exec_answeredAlike hs hu h i
  exact ⟨s', u', r, q, hs', hu', h', hr, hq, hrq.rcode_eq, hrq.kind_eq, hrq.eq_of_other, hrq.eq_of_faulted,
    hrq.descriptors, hrq.status⟩

end Sys2Proof.Machine
end

section
/-! PROOF. READ said once: the search for STX, the ordered checks of a candidate, and what a healthy block answers for
each outcome (spec/41_parser.md R160 to R175). -/

namespace Sys2Proof.Machine

/-! ### The search for STX (R162) -/

theorem stxAt_cons_succ (a : Byte) (cs : List Byte) (i : Nat) : StxAt (a :: cs) (i + 1) ↔ StxAt cs i := Iff.rfl

theorem not_stxAt_of_length_le {cs : List Byte} {i : Nat} (h : cs.length ≤ i + 1) : ¬ StxAt cs i := by
  simp [StxAt, List.getElem?_eq_none h]

theorem findStx_of_stxAt_zero {cs : List Byte} (h : StxAt cs 0) : findStx cs = some 0 := by
  match cs, h with
  | a :: b :: rest, h => exact if_pos (by simpa [StxAt, stx0, stx1] using h)

theorem findStx_cons_of_not_stxAt {a : Byte} {cs : List Byte} (h : ¬ StxAt (a :: cs) 0) :
    findStx (a :: cs) = (findStx cs).map (· + 1) := by
  cases cs with
  | nil => rfl
  | cons b rest => exact if_neg fun hab => h (by simpa [StxAt, stx0, stx1] using hab)

/-- The search finds the least offset at which STX matches, or none where there is none. -/
theorem findStx_cases (cs : List Byte) :
    (findStx cs = none ∧ ∀ i, ¬ StxAt cs i) ∨ ∃ p, findStx cs = some p ∧ StxAt cs p ∧ ∀ i, i < p → ¬ StxAt cs i := by
  induction cs with
  | nil => exact .inl ⟨rfl, fun i => not_stxAt_of_length_le (Nat.zero_le _)⟩
  | cons a cs ih =>
    by_cases h0 : StxAt (a :: cs) 0
    · exact .inr ⟨0, findStx_of_stxAt_zero h0, h0, by simp⟩
    · obtain ⟨hnone, hno⟩ | ⟨p, hsome, hp, hfirst⟩ := ih
      · refine .inl ⟨by rw [findStx_cons_of_not_stxAt h0, hnone]; rfl, fun i => ?_⟩
        cases i with
        | zero => exact h0
        | succ i => exact hno i
      · refine .inr ⟨p + 1, by rw [findStx_cons_of_not_stxAt h0, hsome]; rfl, hp, fun i hi => ?_⟩
        cases i with
        | zero => exact h0
        | succ i => exact hfirst i (Nat.lt_of_succ_lt_succ hi)

theorem findStx_eq_none {cs : List Byte} (h : ∀ i, ¬ StxAt cs i) : findStx cs = none := by
  obtain ⟨hnone, -⟩ | ⟨p, -, hp, -⟩ := findStx_cases cs
  · exact hnone
  · exact absurd hp (h p)

theorem findStx_eq_some {cs : List Byte} {p : Nat} (hp : StxAt cs p) (hfirst : ∀ i, i < p → ¬ StxAt cs i) :
    findStx cs = some p := by
  obtain ⟨-, hno⟩ | ⟨q, hsome, hq, hqfirst⟩ := findStx_cases cs
  · exact absurd hp (hno p)
  · have hpq : p = q := le_antisymm (not_lt.1 fun h => hfirst q h hq) (not_lt.1 fun h => hqfirst p h hp)
    rw [hsome, hpq]

/-- STX takes two bytes, so the search stops before the last one. -/
theorem lt_length_of_findStx {cs : List Byte} {p : Nat} (h : findStx cs = some p) : p + 1 < cs.length := by
  obtain ⟨hnone, -⟩ | ⟨q, hsome, hq, -⟩ := findStx_cases cs
  · simp [hnone] at h
  · obtain rfl : q = p := by simpa [hsome] using h
    exact not_le.1 fun hle => not_stxAt_of_length_le hle hq

/-! ### The fields of a candidate (R57, R58, R165) -/

/-- A byte other than the value past the end is one of the content. -/
theorem byteAt_eq_iff {cs : List Byte} {i : Nat} {b : Byte} (hb : b ≠ 0#8) : byteAt cs i = b ↔ cs[i]? = some b := by
  rw [byteAt, List.getD_eq_getElem?_getD]
  cases cs[i]? <;> simp [hb.symm]

theorem etxAt_iff (cs : List Byte) (i : Nat) : byteAt cs i = etx0 ∧ byteAt cs (i + 1) = etx1 ↔ EtxAt cs i :=
  and_congr (byteAt_eq_iff (by decide)) (byteAt_eq_iff (by decide))

/-- Two bytes make a 16-bit number, so `read16` loses nothing. -/
theorem read16_toNat {cs : List Byte} {i x : Nat} (h : Number16At cs i x) : (read16 cs i).toNat = x := by
  obtain ⟨hi, lo, hhi, hlo, rfl⟩ := h
  have h1 := hi.isLt
  have h2 := lo.isLt
  simp only [read16, byteAt, List.getD_eq_getElem?_getD, hhi, hlo, Option.getD_some, BitVec.toNat_ofNat]
  omega

theorem read16_eq {cs : List Byte} {i x : Nat} (h : Number16At cs i x) : read16 cs i = BitVec.ofNat 16 x := by
  rw [← read16_toNat h, BitVec.ofNat_toNat, BitVec.setWidth_eq]

/-! ### The ordered checks (R161 to R170, R173) -/

section
variable {N L : Nat} {v : CrcVariant} {cs : List Byte}

theorem parseContent_short (h : cs.length < 8) : parseContent N v cs = .incomplete := if_pos h

theorem parseContent_no_stx (h8 : 8 ≤ cs.length) (h : ∀ i, ¬ StxAt cs i) :
    parseContent N v cs = .junk .invalidStx (cs.length - 1) := by
  rw [parseContent, if_neg (Nat.not_lt.2 h8), findStx_eq_none h]

theorem parseContent_late_stx {p : Nat} (h8 : 8 ≤ cs.length) (hpos : 0 < p) (hp : StxAt cs p)
    (hfirst : ∀ i, i < p → ¬ StxAt cs i) : parseContent N v cs = .junk .invalidStx p := by
  obtain ⟨q, rfl⟩ := Nat.exists_eq_add_of_lt hpos
  rw [Nat.zero_add] at *
  rw [parseContent, if_neg (Nat.not_lt.2 h8), findStx_eq_some hp hfirst]

/-- The checks of a candidate of body length `L`, in their order (R166 to R170). -/
theorem parseContent_candidate (h8 : 8 ≤ cs.length) (h : CandidateAt0 cs L) :
    parseContent N v cs =
      if N < L + 8 then .junk .invalidLength 2
      else if cs.length < L + 8 then .incomplete
      else if ¬ (byteAt cs (L + 6) = etx0 ∧ byteAt cs (L + 7) = etx1) then .junk .invalidEtx 2
      else if crc16 v ((cs.drop 4).take L) ≠ read16 cs (L + 4) then .junk .invalidCrc 2
      else .frame (BitVec.ofNat 16 L) := by
  obtain ⟨hstx, hlen⟩ := h
  have hL := read16_toNat hlen
  rw [parseContent, if_neg (Nat.not_lt.2 h8), findStx_of_stxAt_zero hstx, ← read16_eq hlen]
  simp only [parseCandidate, frameSize, hL, Nat.add_comm 4 L]
  rfl

theorem parseContent_too_large (h8 : 8 ≤ cs.length) (h : CandidateAt0 cs L) (hN : N < L + 8) :
    parseContent N v cs = .junk .invalidLength 2 := by
  rw [parseContent_candidate h8 h, if_pos hN]

theorem parseContent_partial (h8 : 8 ≤ cs.length) (h : CandidateAt0 cs L) (hN : L + 8 ≤ N)
    (hpart : cs.length < L + 8) : parseContent N v cs = .incomplete := by
  rw [parseContent_candidate h8 h, if_neg (Nat.not_lt.2 hN), if_pos hpart]

/-- Only ETX and the CRC are left to check of a candidate that fits and has arrived whole. -/
theorem parseContent_whole (h : CandidateAt0 cs L) (hN : L + 8 ≤ N) (hwhole : L + 8 ≤ cs.length) :
    parseContent N v cs =
      if ¬ (byteAt cs (L + 6) = etx0 ∧ byteAt cs (L + 7) = etx1) then .junk .invalidEtx 2
      else if crc16 v ((cs.drop 4).take L) ≠ read16 cs (L + 4) then .junk .invalidCrc 2
      else .frame (BitVec.ofNat 16 L) := by
  rw [parseContent_candidate ((Nat.le_add_left 8 L).trans hwhole) h, if_neg (Nat.not_lt.2 hN),
    if_neg (Nat.not_lt.2 hwhole)]

theorem parseContent_no_etx (h : CandidateAt0 cs L) (hN : L + 8 ≤ N) (hwhole : L + 8 ≤ cs.length)
    (hetx : ¬ EtxAt cs (L + 6)) : parseContent N v cs = .junk .invalidEtx 2 := by
  rw [parseContent_whole h hN hwhole, if_pos (mt (etxAt_iff cs (L + 6)).1 hetx)]

theorem parseContent_bad_crc {field : Nat} (h : CandidateAt0 cs L) (hN : L + 8 ≤ N) (hwhole : L + 8 ≤ cs.length)
    (hetx : EtxAt cs (L + 6)) (hfield : Number16At cs (L + 4) field)
    (hcrc : (crc16 v ((cs.drop 4).take L)).toNat ≠ field) : parseContent N v cs = .junk .invalidCrc 2 := by
  rw [← read16_toNat hfield] at hcrc
  rw [parseContent_whole h hN hwhole, if_neg (not_not.2 ((etxAt_iff cs (L + 6)).2 hetx)),
    if_pos fun heq => hcrc (congrArg BitVec.toNat heq)]

theorem parseContent_frame {field : Nat} (h : CandidateAt0 cs L) (hN : L + 8 ≤ N) (hwhole : L + 8 ≤ cs.length)
    (hetx : EtxAt cs (L + 6)) (hfield : Number16At cs (L + 4) field)
    (hcrc : (crc16 v ((cs.drop 4).take L)).toNat = field) : parseContent N v cs = .frame (BitVec.ofNat 16 L) := by
  rw [← read16_toNat hfield] at hcrc
  rw [parseContent_whole h hN hwhole, if_neg (not_not.2 ((etxAt_iff cs (L + 6)).2 hetx)),
    if_neg (not_not.2 (BitVec.eq_of_toNat_eq hcrc))]

/-- A skip takes at least one byte and leaves at least one (R174). -/
theorem skip_bounds_of_parseContent {kind : JunkKind} {skip : Nat} (h : parseContent N v cs = .junk kind skip) :
    1 ≤ skip ∧ skip + 1 ≤ cs.length := by
  have candidate (h8 : 8 ≤ cs.length) (h : parseCandidate N v cs = .junk kind skip) : 1 ≤ skip ∧ skip + 1 ≤ cs.length := by
    simp only [parseCandidate] at h
    split_ifs at h <;> cases h <;> omega
  unfold parseContent at h
  split at h
  · cases h
  · next h8 =>
    have h8 := Nat.not_lt.1 h8
    split at h
    · cases h; omega
    · exact candidate h8 h
    · next p hp =>
      have := lt_length_of_findStx hp
      cases h
      omega

/-- A content that READ waits on is not the whole of a full buffer (R175). -/
theorem length_lt_of_parseContent (hN : 8 ≤ N) (h : parseContent N v cs = .incomplete) : cs.length < N := by
  have candidate (h : parseCandidate N v cs = .incomplete) : cs.length < N := by
    simp only [parseCandidate] at h
    split_ifs at h with hcap hpart
    omega
  unfold parseContent at h
  split at h
  · omega
  · split at h
    · cases h
    · exact candidate h
    · cases h

end

/-! ### READ on a healthy block (R160, R171) -/

section
variable {s t : State} {content : List Byte}

theorem State.readOutcome_of_content (hc : s.content = some content) :
    s.readOutcome = some (parseContent s.cfg.capacity s.cfg.crcVariant content) := by
  have hlen := s.content_length content hc
  unfold State.readOutcome
  split
  · rw [parseContent_short (by omega)]
  · rw [hc]; rfl

theorem exec_read_of_readOutcome {out : ReadOutcome} (hs : s.Healthy) (hout : s.readOutcome = some out) :
    exec .read s = .next ((s.updateToken out).respond out.response) := by
  refine (preamble_healthy _ s _ hs).trans ?_
  rw [hout]

theorem exec_read_of_parseContent {out : ReadOutcome} (hs : s.Healthy) (hc : s.content = some content)
    (hout : parseContent s.cfg.capacity s.cfg.crcVariant content = out) :
    exec .read s = .next ((s.updateToken out).respond out.response) :=
  exec_read_of_readOutcome hs (hout ▸ State.readOutcome_of_content hc)

/-- A READ that gives a next state has found an outcome and answered it. -/
theorem readOutcome_of_exec_read (hs : s.Healthy) (h : exec .read s = .next t) :
    ∃ out, s.readOutcome = some out ∧ t = (s.updateToken out).respond out.response := by
  cases hout : s.readOutcome with
  | some out => exact ⟨out, rfl, by cases (exec_read_of_readOutcome hs hout).symm.trans h; rfl⟩
  | none =>
    have hfault : exec .read s = .fault .unspecifiedCell := by
      refine (preamble_healthy _ s _ hs).trans ?_
      rw [hout]
    cases hfault.symm.trans h

/-- READ writes to the outbox its response alone. -/
@[simp] theorem State.updateToken_outbox (s : State) (out : ReadOutcome) : (s.updateToken out).outbox = s.outbox := by
  cases out <;> rfl

theorem eq_response_of_exec_read {r : Response} (hs : s.Healthy) (h : exec .read s = .next t)
    (hr : t.outbox = s.outbox ++ [r]) : ∃ out, s.readOutcome = some out ∧ r = out.response := by
  obtain ⟨out, hout, rfl⟩ := readOutcome_of_exec_read hs h
  exact ⟨out, hout, by simpa [eq_comm] using hr⟩

/-- The outcome alone says what READ writes to the token. -/
theorem exists_token_of_outcome (out : ReadOutcome) :
    ∃ valid bodyLen, ∀ (s : State) (r : Response), (s.updateToken out).respond r =
      { s with tokValid := valid, tokBodyLen := bodyLen, outbox := s.outbox ++ [r] } := by
  cases out <;> exact ⟨_, _, fun _ _ => rfl⟩

theorem State.skip_bounds_of_readOutcome {kind : JunkKind} {skip : Nat} (h : s.readOutcome = some (.junk kind skip)) :
    1 ≤ skip ∧ skip + 1 ≤ s.len.toNat := by
  unfold State.readOutcome at h
  split at h
  · cases h
  · split at h
    · next content hc =>
      rw [← s.content_length content hc]
      exact skip_bounds_of_parseContent (Option.some.inj h)
    · cases h

theorem State.len_lt_of_readOutcome (h : s.readOutcome = some .incomplete) : s.len.toNat < s.capacity := by
  unfold State.readOutcome at h
  split at h
  · next h8 => exact h8.trans_le s.capacity_ge
  · split at h
    · next content hc =>
      rw [← s.content_length content hc]
      exact length_lt_of_parseContent s.capacity_ge (Option.some.inj h)
    · cases h

end

end Sys2Proof.Machine
end

section
/-! PROOF. What READ answers in each case of its rule, what it depends on, and its bounds (spec/41_parser.md R161 to
R176). -/

namespace Sys2Proof.Machine

/-! ### The cases of the rule -/

/-- Settles O31: READ finds INCOMPLETE before it looks at any byte. -/
theorem readNeedsEightBytes : Obligations.ReadNeedsEightBytes :=
  fun _ hs h8 => exec_read_of_readOutcome (out := .incomplete) hs (if_pos h8)

/-- Settles O32: the search finds nothing, or the least match `p`. -/
theorem readReportsInvalidStx : Obligations.ReadReportsInvalidStx := by
  intro s content hs hc h8
  have hlen := s.content_length content hc
  refine ⟨fun hno => ?_, fun p hpos hp hfirst => ?_⟩
  · rw [← hlen]
    exact exec_read_of_parseContent hs hc (parseContent_no_stx (by omega) hno)
  · exact exec_read_of_parseContent hs hc (parseContent_late_stx (by omega) hpos hp hfirst)

/-- Settles O33: the capacity check comes before the one for the bytes that have arrived. -/
theorem readChecksCapacity : Obligations.ReadChecksCapacity := by
  intro s content L hs hc h8 hcand hN
  exact exec_read_of_parseContent hs hc
    (parseContent_too_large (h8.trans_eq (s.content_length content hc).symm) hcand hN)

/-- Settles O34: the candidate fits, and not all of it has arrived. -/
theorem readWaitsForWholeFrame : Obligations.ReadWaitsForWholeFrame := by
  intro s content L hs hc h8 hcand hN hpart
  have hlen := s.content_length content hc
  exact exec_read_of_parseContent hs hc (parseContent_partial (by omega) hcand hN (by omega))

/-- Settles O35: ETX is checked before the CRC. -/
theorem readChecksEtx : Obligations.ReadChecksEtx := by
  intro s content L hs hc hcand hN hwhole hetx
  exact exec_read_of_parseContent hs hc
    (parseContent_no_etx hcand hN (hwhole.trans_eq (s.content_length content hc).symm) hetx)

/-- Settles O36: the CRC field is the last thing checked. -/
theorem readChecksCrc : Obligations.ReadChecksCrc := by
  intro s content L field hs hc hcand hN hwhole hetx hfield hcrc
  exact exec_read_of_parseContent hs hc
    (parseContent_bad_crc hcand hN (hwhole.trans_eq (s.content_length content hc).symm) hetx hfield hcrc)

theorem Number16At.lt {cs : List Byte} {i x : Nat} (h : Number16At cs i x) : x < 2 ^ 16 :=
  (read16_toNat h).symm.trans_lt (read16 cs i).isLt

/-- A body length keeps its value in a 24-bit answer (R97). -/
theorem zeroExtend_bodyLen {L : Nat} (h : L < 2 ^ 16) : (BitVec.ofNat 16 L).zeroExtend 24 = BitVec.ofNat 24 L := by
  apply BitVec.eq_of_toNat_eq
  simp only [BitVec.truncate_eq_setWidth, BitVec.toNat_setWidth, BitVec.toNat_ofNat, Nat.mod_eq_of_lt h]

/-- Settles O37: every check passes. -/
theorem readAcceptsFrame : Obligations.ReadAcceptsFrame := by
  intro s content L field hs hc hcand hN hwhole hetx hfield hcrc
  rw [← zeroExtend_bodyLen hcand.2.lt]
  exact exec_read_of_parseContent hs hc
    (parseContent_frame hcand hN (hwhole.trans_eq (s.content_length content hc).symm) hetx hfield hcrc)

/-! ### What READ depends on, and its bounds -/

/-- Settles O38: the outcome is a function of the content, N and the variant, and it alone decides the token. -/
theorem readDependsOnContentOnly : Obligations.ReadDependsOnContentOnly := by
  intro s u content hs hu hsc huc hN hv
  obtain ⟨valid, bodyLen, htoken⟩ := exists_token_of_outcome (parseContent s.cfg.capacity s.cfg.crcVariant content)
  refine ⟨valid, bodyLen, (parseContent s.cfg.capacity s.cfg.crcVariant content).response, ?_, ?_⟩
  · rw [exec_read_of_parseContent hs hsc rfl, htoken]
  · rw [exec_read_of_parseContent hu huc (by rw [← hN, ← hv]), htoken]

/-- Settles O39: a skip and a frame lie inside the content, whose length fits the answer's 24 bits. -/
theorem readSkipBounds : Obligations.ReadSkipBounds := by
  intro s t r hs h hr
  obtain ⟨out, hout, rfl⟩ := eq_response_of_exec_read hs h hr
  have hlen := s.len.isLt
  cases out with
  | incomplete => exact ⟨nofun, nofun⟩
  | junk kind skip =>
    have hskip := State.skip_bounds_of_readOutcome hout
    refine ⟨fun _ => ?_, nofun⟩
    rw [ReadOutcome.response, toNat_count skip (by omega)]
    omega
  | frame L =>
    have hframe := State.frameSize_le_of_readOutcome hout
    refine ⟨nofun, fun _ => ⟨Nat.le_add_left _ _, ?_⟩⟩
    exact (congrArg (· + 8) (BitVec.toNat_setWidth_of_le (by decide))).trans_le hframe

/-- Settles O40: too few bytes are fewer than N (R5), and a frame READ waits for fits N. -/
theorem incompleteLeavesRoom : Obligations.IncompleteLeavesRoom := by
  intro s t r hs h hr hinc
  obtain ⟨out, hout, rfl⟩ := eq_response_of_exec_read hs h hr
  cases out with
  | incomplete => exact State.len_lt_of_readOutcome hout
  | junk kind skip => cases hinc
  | frame L => cases hinc

/-! ### The skip loop (R176) -/

/-- READ leaves the fault state alone (R171). -/
theorem healthy_of_updateToken {s : State} (hs : s.Healthy) (out : ReadOutcome) : (s.updateToken out).Healthy := by
  cases out <;> exact hs

/-- The loop stops at an outcome that is no junk. -/
theorem resync_of_not_junk {s : State} {out : ReadOutcome} (hs : s.Healthy) (hout : s.readOutcome = some out)
    (hstop : out.response.rcode ≠ .junk) (k : Nat) : resync k s = .next ((s.updateToken out).respond out.response) := by
  have hread := exec_read_of_readOutcome hs hout
  cases k with
  | zero => exact hread
  | succ k =>
    cases out with
    | junk kind skip => exact absurd rfl hstop
    | incomplete | frame => simp [resync, hread, State.lastResponse, ReadOutcome.response]

/-- The loop evicts a junk skip and goes on. -/
theorem resync_of_junk {s : State} {kind : JunkKind} {skip : Nat} (hs : s.Healthy)
    (hout : s.readOutcome = some (.junk kind skip)) (k : Nat) :
    ∃ r, resync (k + 1) s =
      resync k (((s.clearToken.respond r).evict skip).clearToken.respond (okResponse 0#24)) := by
  have hskip := State.skip_bounds_of_readOutcome hout
  have hcount : (BitVec.ofNat 24 skip).toNat = skip := toNat_count skip (by have := s.len.isLt; omega)
  refine ⟨⟨.junk, .junk kind, BitVec.ofNat 24 skip, []⟩, ?_⟩
  have hread : exec .read s = .next (s.clearToken.respond ⟨.junk, .junk kind, BitVec.ofNat 24 skip, []⟩) :=
    exec_read_of_readOutcome hs hout
  have hconsume := exec_consume_of_le (s := s.clearToken.respond ⟨.junk, .junk kind, BitVec.ofNat 24 skip, []⟩)
    (n := BitVec.ofNat 24 skip) hs (by rw [hcount]; exact (Nat.le_succ skip).trans hskip.2)
  rw [hcount] at hconsume
  simp [resync, hread, hconsume, State.lastResponse]

/-- The loop has ended without a fault, and its last response is INCOMPLETE or FRAME. -/
def Resynchronised (result : Result) : Prop :=
  ∃ t r, result = .next t ∧ t.outbox.getLast? = some r ∧ (r.rcode = .incomplete ∨ r.rcode = .frame) ∧ t.Healthy

theorem resynchronised_of_outcome {s : State} {out : ReadOutcome} (hs : s.Healthy) (hout : s.readOutcome = some out)
    (hr : out.response.rcode = .incomplete ∨ out.response.rcode = .frame) (k : Nat) : Resynchronised (resync k s) := by
  have hstop : out.response.rcode ≠ .junk := by rcases hr with hr | hr <;> simp [hr]
  exact ⟨_, out.response, resync_of_not_junk hs hout hstop k, by simp, hr, healthy_of_updateToken hs out⟩

/-- The loop ends within as many skips as there are bytes, since each takes at least one. -/
theorem resync_resynchronised {s : State} (h : s.Inv) (hs : s.Healthy) {k : Nat} (hk : s.len.toNat ≤ k) :
    Resynchronised (resync k s) := by
  induction k generalizing s with
  | zero =>
    have hout : s.readOutcome = some .incomplete := if_pos (by omega)
    exact resynchronised_of_outcome hs hout (.inl rfl) 0
  | succ k ih =>
    obtain ⟨out, hout⟩ := h.exists_readOutcome
    cases out with
    | incomplete => exact resynchronised_of_outcome hs hout (.inl rfl) (k + 1)
    | frame L => exact resynchronised_of_outcome hs hout (.inr rfl) (k + 1)
    | junk kind skip =>
      obtain ⟨hpos, hle⟩ := State.skip_bounds_of_readOutcome hout
      obtain ⟨r, hloop⟩ := resync_of_junk hs hout k
      have hinv := ((h.clearToken.respond r).evict (n := skip) (by simp; omega)).respond (okResponse 0#24)
      rw [hloop]
      refine ih hinv ((State.evict_faultCause _ skip).trans hs) ?_
      simp only [State.respond_len, State.clearToken_len, State.evict_len_toNat]
      omega

/-- Settles O41: the loop has as many skips as there are bytes. -/
theorem resyncTerminates : Obligations.ResyncTerminates :=
  fun _ h hs => resync_resynchronised h hs le_rfl

end Sys2Proof.Machine
end

section
/-! PROOF. The CRC function tells apart bodies that differ in one byte: both updates are injective in the accumulator and
in the byte (spec/43_crc.md R212, R214; spec/41_parser.md R180). -/

namespace Sys2Proof.Machine

/-! ### One shift -/

theorem eq_of_ushiftRight_one_eq {c d : U16} (h : c >>> 1 = d >>> 1) (h0 : c.getLsbD 0 = d.getLsbD 0) : c = d := by
  apply BitVec.eq_of_getLsbD_eq
  intro i _
  cases i with
  | zero => exact h0
  | succ i => simpa [Nat.add_comm] using congrArg (BitVec.getLsbD · i) h

theorem eq_of_shiftLeft_one_eq {c d : U16} (h : c <<< 1 = d <<< 1) (h15 : c.getLsbD 15 = d.getLsbD 15) : c = d := by
  apply BitVec.eq_of_getLsbD_eq
  intro i hi
  rcases Nat.lt_succ_iff_lt_or_eq.1 hi with hlt | rfl
  · rw [BitVec.getLsbD_eq_getElem hi, BitVec.getLsbD_eq_getElem hi]
    simpa [show i + 1 < 16 by omega] using congrArg (BitVec.getLsbD · (i + 1)) h
  · exact h15

/-- The bit shifted out of the reflected form stands in bit 15 of the result, as `0xA001` has bit 15 set. -/
theorem arcShift_getLsbD_fifteen (c : U16) : (arcShift c).getLsbD 15 = c.getLsbD 0 := by
  unfold arcShift
  split <;> simp_all

/-- The bit shifted out of the non-reflected form stands in bit 0 of the result, as `0x1021` has bit 0 set. -/
theorem ibmShift_getLsbD_zero (c : U16) : (ibmShift c).getLsbD 0 = c.getLsbD 15 := by
  unfold ibmShift
  split <;> simp_all

theorem arcShift_injective : Function.Injective arcShift := by
  intro c d h
  have h0 : c.getLsbD 0 = d.getLsbD 0 := by rw [← arcShift_getLsbD_fifteen, h, arcShift_getLsbD_fifteen]
  refine eq_of_ushiftRight_one_eq ?_ h0
  unfold arcShift at h
  rw [h0] at h
  split at h
  · exact (BitVec.xor_left_inj _).1 h
  · exact h

theorem ibmShift_injective : Function.Injective ibmShift := by
  intro c d h
  have h15 : c.getLsbD 15 = d.getLsbD 15 := by rw [← ibmShift_getLsbD_zero, h, ibmShift_getLsbD_zero]
  refine eq_of_shiftLeft_one_eq ?_ h15
  unfold ibmShift at h
  rw [h15] at h
  split at h
  · exact (BitVec.xor_left_inj _).1 h
  · exact h

/-! ### One byte -/

/-- The byte lands in the accumulator's low half, or its high half. -/
theorem zeroExtend_byte_injective : Function.Injective fun b : Byte => b.zeroExtend 16 := by
  intro b d h
  simpa using congrArg (BitVec.setWidth 8) h

theorem zeroExtend_byte_shiftLeft_injective : Function.Injective fun b : Byte => b.zeroExtend 16 <<< 8 := by
  intro b d h
  apply BitVec.eq_of_getLsbD_eq
  intro i hi
  simpa [hi, show 8 + i < 16 by omega] using congrArg (BitVec.getLsbD · (8 + i)) h

theorem crcUpdate_injective_acc (v : CrcVariant) (b : Byte) : Function.Injective fun c => crcUpdate v c b := by
  cases v with
  | arc => exact fun c d h => (BitVec.xor_left_inj _).1 (arcShift_injective.iterate 8 h)
  | ibm3740 => exact fun c d h => (BitVec.xor_left_inj _).1 (ibmShift_injective.iterate 8 h)

theorem crcUpdate_injective_byte (v : CrcVariant) (c : U16) : Function.Injective (crcUpdate v c) := by
  cases v with
  | arc => exact fun b d h => zeroExtend_byte_injective ((BitVec.xor_right_inj _).1 (arcShift_injective.iterate 8 h))
  | ibm3740 =>
    exact fun b d h => zeroExtend_byte_shiftLeft_injective ((BitVec.xor_right_inj _).1 (ibmShift_injective.iterate 8 h))

/-! ### A body -/

theorem crcFold_injective (v : CrcVariant) (bytes : List Byte) : Function.Injective fun c => crcFold v c bytes := by
  induction bytes with
  | nil => exact fun c d h => h
  | cons b rest ih => exact ih.comp (crcUpdate_injective_acc v b)

/-- Changing one byte changes the CRC: the fold is at one accumulator before that byte, at two different ones after it,
and the bytes behind it keep them apart. -/
theorem crc16_set_ne (v : CrcVariant) {body : List Byte} {i : Nat} {old new : Byte} (hold : body[i]? = some old)
    (hnew : new ≠ old) : crc16 v (body.set i new) ≠ crc16 v body := by
  obtain ⟨hi, hget⟩ := List.getElem?_eq_some_iff.1 hold
  have hsplit : body = body.take i ++ old :: body.drop (i + 1) := by
    rw [← hget, ← List.drop_eq_getElem_cons hi, List.take_append_drop]
  have hfold (b : Byte) : crc16 v (body.take i ++ b :: body.drop (i + 1)) =
      crcFold v (crcUpdate v (crc16 v (body.take i)) b) (body.drop (i + 1)) := by
    simp [crc16, crcFold]
  intro h
  rw [List.set_eq_take_append_cons_drop, if_pos hi, hfold] at h
  conv at h => rhs; rw [hsplit, hfold]
  exact hnew (crcUpdate_injective_byte v _ (crcFold_injective v _ h))

end Sys2Proof.Machine
end

section
/-! PROOF. What READ finds in the bytes of the reference encoder: a whole frame, one with a byte changed, and a part of
one (spec/30_encoding.md R80 to R87; spec/41_parser.md R177 to R180). -/

namespace Sys2Proof.Machine

/-! ### Fields in a part of a content -/

theorem stxAt_append_iff {cs : List Byte} {i : Nat} (rest : List Byte) (h : i + 1 < cs.length) :
    StxAt (cs ++ rest) i ↔ StxAt cs i := by
  rw [StxAt, StxAt, List.getElem?_append_left h, List.getElem?_append_left (Nat.lt_of_succ_lt h)]

/-- A candidate is known from its first four bytes (R165). -/
theorem CandidateAt0.of_append {cs rest : List Byte} {L : Nat} (h : CandidateAt0 (cs ++ rest) L) (h4 : 4 ≤ cs.length) :
    CandidateAt0 cs L := by
  obtain ⟨hstx, hi, lo, hhi, hlo, hL⟩ := h
  rw [List.getElem?_append_left (by omega)] at hhi hlo
  exact ⟨(stxAt_append_iff rest (by omega)).1 hstx, hi, lo, hhi, hlo, hL⟩

/-- The two bytes of a big-endian number stand behind what comes before it (R57). -/
theorem number16At_bigEndian16 (front : List Byte) (x : U16) (rest : List Byte) :
    Number16At (front ++ (bigEndian16 x ++ rest)) front.length x.toNat := by
  refine ⟨x.extractLsb' 8 8, x.extractLsb' 0 8, ?_, ?_, ?_⟩
  · simp [bigEndian16]
  · simp [bigEndian16]
  · have hx := x.isLt
    simp only [BitVec.extractLsb'_toNat, Nat.shiftRight_eq_div_pow]
    omega

theorem etxAt_append (front rest : List Byte) : EtxAt (front ++ (etx0 :: etx1 :: rest)) front.length := by
  simp [EtxAt, etx0, etx1]

/-! ### The wire format (R80) -/

/-- The wire format of a frame, whatever stands in its CRC field (R80). -/
def wireFrame (body : List Byte) (crc : U16) : List Byte :=
  [stx0, stx1] ++ bigEndian16 (BitVec.ofNat 16 body.length) ++ body ++ bigEndian16 crc ++ [etx0, etx1]

/-- The reference encoder writes the wire format with the body's CRC (R86). -/
theorem eq_wireFrame_of_encodeFrame {v : CrcVariant} {body frame : List Byte} (h : encodeFrame v body = some frame) :
    body.length < 2 ^ 16 ∧ frame = wireFrame body (crc16 v body) := by
  unfold encodeFrame at h
  split at h
  · cases h
  · exact ⟨by omega, (Option.some.inj h).symm⟩

section
variable (body rest : List Byte) (crc : U16)

@[simp] theorem wireFrame_length : (wireFrame body crc).length = body.length + 8 := by
  simp [wireFrame, bigEndian16]

/-- Changing a body byte leaves the rest of the frame alone. -/
theorem wireFrame_set {i : Nat} (hi : i < body.length) (b : Byte) :
    (wireFrame body crc).set (4 + i) b = wireFrame (body.set i b) crc := by
  simp [wireFrame, bigEndian16, Nat.add_comm 4 i, hi]

theorem wireFrame_candidateAt0 (hlen : body.length < 2 ^ 16) :
    CandidateAt0 (wireFrame body crc ++ rest) body.length := by
  refine ⟨⟨rfl, rfl⟩, ?_⟩
  have h := number16At_bigEndian16 [stx0, stx1] (BitVec.ofNat 16 body.length)
    (body ++ (bigEndian16 crc ++ (etx0 :: etx1 :: rest)))
  rw [BitVec.toNat_ofNat, Nat.mod_eq_of_lt hlen] at h
  simpa [wireFrame] using h

theorem wireFrame_etxAt : EtxAt (wireFrame body crc ++ rest) (body.length + 6) := by
  have h := etxAt_append ([stx0, stx1] ++ bigEndian16 (BitVec.ofNat 16 body.length) ++ body ++ bigEndian16 crc) rest
  simpa [wireFrame, bigEndian16] using h

theorem wireFrame_crc_field : Number16At (wireFrame body crc ++ rest) (body.length + 4) crc.toNat := by
  have h := number16At_bigEndian16 ([stx0, stx1] ++ bigEndian16 (BitVec.ofNat 16 body.length) ++ body) crc
    (etx0 :: etx1 :: rest)
  simpa [wireFrame, bigEndian16] using h

theorem wireFrame_body : ((wireFrame body crc ++ rest).drop 4).take body.length = body := by
  simp [wireFrame, bigEndian16]

variable {body rest crc} {N : Nat} {v : CrcVariant}

/-- READ finds the frame where its CRC field is the CRC of its body. -/
theorem parseContent_wireFrame (hlen : body.length < 2 ^ 16) (hN : body.length + 8 ≤ N) :
    parseContent N v (wireFrame body (crc16 v body) ++ rest) = .frame (BitVec.ofNat 16 body.length) :=
  parseContent_frame (wireFrame_candidateAt0 body rest _ hlen) hN (by simp) (wireFrame_etxAt body rest _)
    (wireFrame_crc_field body rest _) (by rw [wireFrame_body])

theorem parseContent_wireFrame_alone (hlen : body.length < 2 ^ 16) (hN : body.length + 8 ≤ N) :
    parseContent N v (wireFrame body (crc16 v body)) = .frame (BitVec.ofNat 16 body.length) := by
  simpa using parseContent_wireFrame (rest := []) hlen hN

theorem parseContent_wireFrame_of_ne (hlen : body.length < 2 ^ 16) (hN : body.length + 8 ≤ N)
    (hcrc : crc16 v body ≠ crc) : parseContent N v (wireFrame body crc ++ rest) = .junk .invalidCrc 2 :=
  parseContent_bad_crc (wireFrame_candidateAt0 body rest _ hlen) hN (by simp) (wireFrame_etxAt body rest _)
    (wireFrame_crc_field body rest _) (by rw [wireFrame_body]; exact mt BitVec.eq_of_toNat_eq hcrc)

/-- READ waits for the rest of a frame, before and after its header has arrived (R161, R167). -/
theorem parseContent_part_of_wireFrame {cs : List Byte} (hlen : body.length < 2 ^ 16) (hN : body.length + 8 ≤ N)
    (hrest : rest ≠ []) (hframe : cs ++ rest = wireFrame body crc) : parseContent N v cs = .incomplete := by
  rcases Nat.lt_or_ge cs.length 8 with hshort | h8
  · exact parseContent_short hshort
  · have hcand : CandidateAt0 (cs ++ rest) body.length := by
      simpa [hframe] using wireFrame_candidateAt0 body [] crc hlen
    have hsize : cs.length + rest.length = body.length + 8 := by
      rw [← List.length_append, hframe, wireFrame_length]
    have hpos := List.length_pos_iff.2 hrest
    exact parseContent_partial h8 (hcand.of_append (by omega)) hN (by omega)

/-- Junk without STX before a frame is skipped up to the frame: no STX stands across the border, as the frame does not
begin with the second byte of STX (R164). -/
theorem parseContent_junk_wireFrame {junk : List Byte} (hjunk : junk ≠ []) (hno : ∀ i, ¬ StxAt junk i) :
    parseContent N v (junk ++ wireFrame body crc) = .junk .invalidStx junk.length := by
  refine parseContent_late_stx (by simp; omega) (List.length_pos_iff.2 hjunk) ?_ fun i hi => ?_
  · simp [StxAt, wireFrame, stx0, stx1]
  · rcases Nat.lt_or_eq_of_le (Nat.succ_le_of_lt hi) with hlt | heq
    · exact mt (stxAt_append_iff _ hlt).1 (hno i)
    · rintro ⟨-, hborder⟩
      rw [show i + 1 = junk.length from heq, List.getElem?_append_right le_rfl, Nat.sub_self] at hborder
      cases hborder

end

/-- Settles O45: the frame is whole and ends in ETX, but its CRC field is that of the unchanged body. -/
theorem bodyTamperDetected : Obligations.BodyTamperDetected := by
  intro s body frame rest i old new hs hframe hN hold hnew hc
  obtain ⟨hlen, rfl⟩ := eq_wireFrame_of_encodeFrame hframe
  rw [wireFrame_length] at hN
  rw [wireFrame_set body _ (List.getElem?_eq_some_iff.1 hold).1] at hc
  exact exec_read_of_parseContent hs hc
    (parseContent_wireFrame_of_ne (by simpa using hlen) (by simpa using hN) (crc16_set_ne _ hold hnew))

end Sys2Proof.Machine
end

section
/-! PROOF. What a host sees that fills, reads and consumes in turn: frames received whole, in chunks, and around junk
(spec/41_parser.md R177 to R179). -/

namespace Sys2Proof.Machine

/-! ### A block that holds a content, and one command on it -/

/-- A healthy block of a configuration, in a state that satisfies the invariant, whose buffer holds `cs`. -/
structure State.Buffers (s : State) (cfg : Config) (cs : List Byte) : Prop where
  cfg_eq : s.cfg = cfg
  inv : s.Inv
  healthy : s.Healthy
  content_eq : s.content = some cs

/-- Such a block with its token armed for a body of length `L` (R171). -/
structure State.Armed (s : State) (cfg : Config) (cs : List Byte) (L : U16) : Prop extends s.Buffers cfg cs where
  tokValid_eq : s.tokValid = true
  tokBodyLen_eq : s.tokBodyLen = L

/-- The command runs to `t` and its one response is `r`. -/
def Answers (i : Instr) (r : Response) (s t : State) : Prop := exec i s = .next t ∧ t.outbox = s.outbox ++ [r]

section
variable {s t : State} {cfg : Config} {cs cs' : List Byte} {i : Instr}

/-- Every command keeps the invariant and the configuration. -/
theorem State.Buffers.of_exec (h : s.Buffers cfg cs) (hexec : exec i s = .next t) (ht : t.Healthy)
    (hc : t.content = some cs') : t.Buffers cfg cs' :=
  ⟨(exec_effect hexec).cfg_eq.trans h.cfg_eq, (exec_effect hexec).keeps_inv h.inv, ht, hc⟩

theorem State.Buffers.length_eq (h : s.Buffers cfg cs) : cs.length = s.len.toNat := s.content_length cs h.content_eq

theorem State.Buffers.capacity_eq (h : s.Buffers cfg cs) : s.capacity = cfg.capacity := congrArg Config.capacity h.cfg_eq

theorem State.Buffers.length_le (h : s.Buffers cfg cs) : cs.length ≤ cfg.capacity := by
  rw [h.length_eq, ← h.capacity_eq]
  exact h.inv.len_le

/-- An empty buffer holds no bytes. -/
theorem State.Inv.buffers_nil (h : s.Inv) (hs : s.Healthy) (hlen : s.len = 0#24) : s.Buffers s.cfg [] := by
  obtain ⟨cs, hc⟩ := State.Inv.exists_content s h
  obtain rfl : cs = [] := List.length_eq_zero_iff.1 (by rw [s.content_length cs hc, hlen]; rfl)
  exact ⟨rfl, h, hs, hc⟩

/-- FILL of no more than the free room appends all of it (R123). -/
theorem State.Buffers.fill (h : s.Buffers cfg cs) {payload : List Byte}
    (hfit : cs.length + payload.length ≤ cfg.capacity) :
    ∃ t, Answers (.fill payload) (okResponse (BitVec.ofNat 24 payload.length)) s t ∧ t.Buffers cfg (cs ++ payload) := by
  have hfree : payload.length ≤ s.free := by
    rw [h.length_eq, ← h.capacity_eq] at hfit
    unfold State.free
    omega
  have hexec : exec (.fill payload) s = .next ((s.appendBytes payload).clearToken.respond
      (okResponse (BitVec.ofNat 24 payload.length))) := by
    rw [show exec (.fill payload) s = _ from preamble_healthy _ s _ h.healthy, Nat.min_eq_left hfree, List.take_length]
  exact ⟨_, ⟨hexec, rfl⟩, h.of_exec hexec h.healthy (h.inv.appendBytes_content h.content_eq hfree)⟩

/-- CONSUME drops what it is asked to drop (R124). -/
theorem State.Buffers.consume (h : s.Buffers cfg cs) {n : Nat} (hn : n ≤ cs.length) :
    ∃ t, Answers (.consume (BitVec.ofNat 24 n)) (okResponse 0#24) s t ∧ t.Buffers cfg (cs.drop n) := by
  rw [h.length_eq] at hn
  have hcount : (BitVec.ofNat 24 n).toNat = n := toNat_count n (hn.trans_lt s.len.isLt)
  have hexec := exec_consume_of_le (n := BitVec.ofNat 24 n) h.healthy (hcount.trans_le hn)
  rw [hcount] at hexec
  exact ⟨_, ⟨hexec, by simp⟩, h.of_exec hexec ((s.evict_faultCause n).trans h.healthy)
    (h.inv.evict_content h.content_eq hn)⟩

/-- READ leaves the content as it is, whatever it finds (R160). -/
theorem State.Buffers.read (h : s.Buffers cfg cs) {out : ReadOutcome}
    (hout : parseContent cfg.capacity cfg.crcVariant cs = out) :
    ∃ t, Answers .read out.response s t ∧ t.Buffers cfg cs := by
  rw [← h.cfg_eq] at hout
  have hexec := exec_read_of_parseContent h.healthy h.content_eq hout
  refine ⟨_, ⟨hexec, by simp⟩, h.of_exec hexec (healthy_of_updateToken h.healthy out) ?_⟩
  cases out <;> exact h.content_eq

/-- READ of a frame arms the token (R171). -/
theorem State.Buffers.read_frame (h : s.Buffers cfg cs) {L : Nat} (hL : L < 2 ^ 16)
    (hout : parseContent cfg.capacity cfg.crcVariant cs = .frame (BitVec.ofNat 16 L)) :
    ∃ t, Answers .read ⟨.frame, .none, BitVec.ofNat 24 L, []⟩ s t ∧ t.Armed cfg cs (BitVec.ofNat 16 L) := by
  rw [← h.cfg_eq] at hout
  have hexec := exec_read_of_parseContent h.healthy h.content_eq hout
  exact ⟨_, ⟨hexec, by rw [← zeroExtend_bodyLen hL]; rfl⟩, h.of_exec hexec h.healthy h.content_eq, rfl, rfl⟩

/-- A token command with the token it needs (R255). -/
theorem needToken_valid (opcode : BitVec 4) (command : Result) (h : s.tokValid = true) :
    needToken opcode s command = command := if_pos h

/-- CONV answers the frame size and spends the token (R192). -/
theorem State.Armed.conv {L : U16} (h : s.Armed cfg cs L) :
    ∃ t, Answers .conv (okResponse (BitVec.ofNat 24 (frameSize L))) s t ∧ t.Buffers cfg cs := by
  have hexec : exec .conv s = .next (s.clearToken.respond (okResponse (BitVec.ofNat 24 (frameSize L)))) := by
    rw [← h.tokBodyLen_eq]
    exact (preamble_healthy _ s _ h.healthy).trans (needToken_valid _ _ h.tokValid_eq)
  exact ⟨_, ⟨hexec, rfl⟩, h.of_exec hexec h.healthy h.content_eq⟩

/-- The cells of the content lie in the store (R52, R53). -/
theorem State.Inv.phys_lt (h : s.Inv) {j : Nat} (hj : j < s.len.toNat) : s.phys j < s.capacity := by
  have hle := h.len_le
  rw [s.phys_eq h.head_contiguous j (by omega)]
  exact Nat.mod_lt _ (by omega)

/-- BODY answers descriptors whose cells hold the validated body, and keeps the token (R191). -/
theorem State.Armed.body {L : U16} (h : s.Armed cfg cs L) :
    ∃ t p1 p2, Answers .body (viewResponse (p1, p2)) s t ∧ t.Armed cfg cs L ∧
      (∀ a ∈ p1.cells ++ p2.cells, a < cfg.capacity) ∧
      t.store.readAll (p1.cells ++ p2.cells) = some ((cs.drop 4).take L.toNat) := by
  have hfits : 4 + L.toNat ≤ s.len.toNat := by
    have := h.inv.token_fits h.tokValid_eq
    rw [h.tokBodyLen_eq, frameSize] at this
    omega
  have hexec : exec .body s = .next (s.respond (viewResponse (s.subrange 4 (4 + L.toNat)))) := by
    rw [← h.tokBodyLen_eq]
    exact (preamble_healthy _ s _ h.healthy).trans (needToken_valid _ _ h.tokValid_eq)
  refine ⟨_, (s.subrange 4 (4 + L.toNat)).1, (s.subrange 4 (4 + L.toNat)).2, ⟨hexec, rfl⟩,
    ⟨h.of_exec hexec h.healthy h.content_eq, h.tokValid_eq, h.tokBodyLen_eq⟩, fun a ha => ?_, ?_⟩
  · rw [h.inv.subrange_cells (Nat.le_add_right _ _) hfits] at ha
    obtain ⟨j, hj, rfl⟩ := List.mem_map.1 ha
    rw [← h.capacity_eq]
    exact h.inv.phys_lt (by have := List.mem_range'_1.1 hj; omega)
  · have hread := h.inv.readAll_subrange h.content_eq (Nat.le_add_right 4 L.toNat) hfits
    rwa [List.drop_take, Nat.add_sub_cancel_left] at hread

end

/-! ### Commands in a row -/

/-- The commands run without a stop to `t`, and their responses are `rs`. -/
def AnswersAll (cmds : List Instr) (rs : List Response) (s t : State) : Prop :=
  execAll cmds s = .next t ∧ t.outbox = s.outbox ++ rs

section
variable {s t u : State} {i : Instr} {r : Response} {cmds cmds' : List Instr} {rs rs' : List Response}

theorem AnswersAll.nil (s : State) : AnswersAll [] [] s s := ⟨rfl, (List.append_nil _).symm⟩

theorem Answers.cons (h : Answers i r s t) (ht : AnswersAll cmds rs t u) : AnswersAll (i :: cmds) (r :: rs) s u := by
  obtain ⟨hexec, hout⟩ := h
  obtain ⟨hexecs, houts⟩ := ht
  exact ⟨by simp only [execAll, hexec, hexecs], by simp [houts, hout]⟩

theorem Answers.single (h : Answers i r s t) : AnswersAll [i] [r] s t := h.cons (.nil t)

theorem execAll_append (cmds' : List Instr) (h : execAll cmds s = .next t) :
    execAll (cmds ++ cmds') s = execAll cmds' t := by
  induction cmds generalizing s with
  | nil => cases h; rfl
  | cons i cmds ih =>
    simp only [List.cons_append, execAll] at h ⊢
    cases hi : exec i s with
    | next u => rw [hi] at h; exact ih h
    | fault f => rw [hi] at h; cases h
    | refused f => rw [hi] at h; cases h

theorem AnswersAll.append (h : AnswersAll cmds rs s t) (ht : AnswersAll cmds' rs' t u) :
    AnswersAll (cmds ++ cmds') (rs ++ rs') s u :=
  ⟨(execAll_append cmds' h.1).trans ht.1, by rw [ht.2, h.2, List.append_assoc]⟩

end

/-! ### One frame (R177) -/

/-- The size of a frame whose body length fits its LEN field (R83). -/
theorem frameSize_ofNat {L : Nat} (h : L < 2 ^ 16) : frameSize (BitVec.ofNat 16 L) = L + 8 := by
  rw [frameSize, BitVec.toNat_ofNat, Nat.mod_eq_of_lt h]

/-- Settles O42: the FILL makes the frame the content, and each command after it finds what the one before left. -/
theorem frameRoundTrip : Obligations.FrameRoundTrip := by
  intro s body frame h hs hempty hN hframe
  obtain ⟨hlen, rfl⟩ := eq_wireFrame_of_encodeFrame hframe
  obtain ⟨t1, ⟨he1, ho1⟩, h1⟩ := (h.buffers_nil hs hempty).fill
    (payload := wireFrame body (crc16 s.cfg.crcVariant body)) (by simpa using hN)
  rw [List.nil_append] at h1
  obtain ⟨t2, ⟨he2, ho2⟩, h2⟩ := h1.read_frame hlen (parseContent_wireFrame_alone hlen hN)
  obtain ⟨t3, p1, p2, ⟨he3, ho3⟩, h3, hcells, hread⟩ := h2.body
  obtain ⟨t4, ⟨he4, ho4⟩, h4⟩ := h3.conv
  obtain ⟨t5, ⟨he5, ho5⟩, h5⟩ := h4.consume (n := body.length + 8) (by simp)
  rw [frameSize_ofNat hlen] at ho4
  rw [BitVec.toNat_ofNat, Nat.mod_eq_of_lt hlen, ← List.append_nil (wireFrame _ _), wireFrame_body] at hread
  have hzero : t5.len.toNat = 0 := by simp [← h5.length_eq]
  exact ⟨t1, t2, t3, t4, t5, p1, p2, he1, ho1, he2, ho2, he3, ho3, hcells, hread, he4, ho4, he5, ho5,
    BitVec.eq_of_toNat_eq hzero⟩

/-! ### A frame in chunks (R178) -/

/-- What each command of a delivery answers before the frame is whole (R178). -/
def deliveryResponse (i : Instr) : Response :=
  if i = .read then ⟨.incomplete, .none, 0#24, []⟩ else ⟨.ok, .none, BitVec.ofNat 24 i.payload.length, []⟩

/-- As long as bytes of the frame are missing, FILLs append their chunks and READs wait. -/
theorem State.Buffers.deliver {cfg : Config} {body rest : List Byte} {crc : U16} (hlen : body.length < 2 ^ 16)
    (hN : body.length + 8 ≤ cfg.capacity) (hrest : rest ≠ []) {cmds : List Instr}
    (hcmds : ∀ i ∈ cmds, i = .read ∨ ∃ p, i = .fill p) {s : State} {cs : List Byte} (h : s.Buffers cfg cs)
    (hframe : cs ++ (cmds.flatMap Instr.payload ++ rest) = wireFrame body crc) :
    ∃ t, AnswersAll cmds (cmds.map deliveryResponse) s t ∧ t.Buffers cfg (cs ++ cmds.flatMap Instr.payload) := by
  induction cmds generalizing s cs with
  | nil => exact ⟨s, .nil s, by simpa using h⟩
  | cons i cmds ih =>
    obtain ⟨hi, hcmds⟩ := List.forall_mem_cons.1 hcmds
    have first : ∃ t, Answers i (deliveryResponse i) s t ∧ t.Buffers cfg (cs ++ i.payload) := by
      rcases hi with rfl | ⟨p, rfl⟩
      · rw [show Instr.payload .read = [] from rfl, List.append_nil]
        exact h.read (out := .incomplete) (parseContent_part_of_wireFrame hlen hN (by simp [hrest]) hframe)
      · refine h.fill ?_
        have hsize := congrArg List.length hframe
        simp only [List.length_append, List.flatMap_cons, Instr.payload, wireFrame_length] at hsize
        omega
    obtain ⟨t, ht, hbuf⟩ := first
    obtain ⟨u, hu, hbuf'⟩ := ih hcmds hbuf (by simpa using hframe)
    exact ⟨u, ht.cons hu, by simpa using hbuf'⟩

/-- Settles O43: after the last chunk the content is the frame. -/
theorem chunkedDeliverySameFrame : Obligations.ChunkedDeliverySameFrame := by
  intro s body frame last cmds h hs hempty hframe hN hcmds hlast hsplit
  obtain ⟨hlen, rfl⟩ := eq_wireFrame_of_encodeFrame hframe
  rw [wireFrame_length] at hN
  obtain ⟨t, ⟨het, hot⟩, ht⟩ := (h.buffers_nil hs hempty).deliver hlen hN hlast hcmds hsplit
  have hsize : (cmds.flatMap Instr.payload).length + last.length = body.length + 8 := by
    rw [← List.length_append, hsplit, wireFrame_length]
  obtain ⟨u, ⟨heu, hou⟩, hu⟩ := ht.fill (payload := last) (hsize.trans_le hN)
  rw [List.nil_append, hsplit] at hu
  obtain ⟨w, ⟨hew, how⟩, hw⟩ := hu.read_frame hlen (parseContent_wireFrame_alone hlen hN)
  exact ⟨t, u, w, het, hot, heu, hou, hew, how, hw.tokValid_eq, hw.tokBodyLen_eq, hw.content_eq⟩

/-! ### Frames around junk (R179) -/

section
variable {s : State} {cfg : Config} {body rest junk : List Byte} {crc : U16}

/-- READ, CONV and CONSUME take a frame off the front of the content. -/
theorem State.Buffers.take_frame (h : s.Buffers cfg (wireFrame body (crc16 cfg.crcVariant body) ++ rest))
    (hlen : body.length < 2 ^ 16) :
    ∃ t, AnswersAll [.read, .conv, .consume (BitVec.ofNat 24 (body.length + 8))]
        [⟨.frame, .none, BitVec.ofNat 24 body.length, []⟩, ⟨.ok, .none, BitVec.ofNat 24 (body.length + 8), []⟩,
          ⟨.ok, .none, 0#24, []⟩] s t ∧
      t.Buffers cfg rest := by
  have hN : body.length + 8 ≤ cfg.capacity := by
    have := h.length_le
    simp only [List.length_append, wireFrame_length] at this
    omega
  obtain ⟨t1, a1, h1⟩ := h.read_frame hlen (parseContent_wireFrame hlen hN)
  obtain ⟨t2, a2, h2⟩ := h1.conv
  obtain ⟨t3, a3, h3⟩ := h2.consume (n := body.length + 8) (by simp)
  rw [frameSize_ofNat hlen] at a2
  rw [List.drop_left' (wireFrame_length body _)] at h3
  exact ⟨t3, a1.cons (a2.cons a3.single), h3⟩

/-- READ and CONSUME take junk without STX off the front of a frame. -/
theorem State.Buffers.skip_junk (h : s.Buffers cfg (junk ++ wireFrame body crc)) (hjunk : junk ≠ [])
    (hno : ∀ i, ¬ StxAt junk i) :
    ∃ t, AnswersAll [.read, .consume (BitVec.ofNat 24 junk.length)]
        [⟨.junk, .junk .invalidStx, BitVec.ofNat 24 junk.length, []⟩, ⟨.ok, .none, 0#24, []⟩] s t ∧
      t.Buffers cfg (wireFrame body crc) := by
  obtain ⟨t1, a1, h1⟩ := h.read (parseContent_junk_wireFrame hjunk hno)
  obtain ⟨t2, a2, h2⟩ := h1.consume (n := junk.length) (by simp)
  rw [List.drop_left] at h2
  exact ⟨t2, a1.cons a2.single, h2⟩

end

/-- Settles O44: frame, junk and frame are taken off the front in turn, and READ of the empty buffer waits. -/
theorem junkResynchronises : Obligations.JunkResynchronises := by
  intro s bodyA bodyB junk frameA frameB h hs hframeA hframeB hjunk hno hc
  obtain ⟨hlenA, rfl⟩ := eq_wireFrame_of_encodeFrame hframeA
  obtain ⟨hlenB, rfl⟩ := eq_wireFrame_of_encodeFrame hframeB
  rw [List.append_assoc] at hc
  have hbuf : s.Buffers s.cfg _ := ⟨rfl, h, hs, hc⟩
  obtain ⟨t1, a1, h1⟩ := hbuf.take_frame hlenA
  obtain ⟨t2, a2, h2⟩ := h1.skip_junk hjunk hno
  rw [← List.append_nil (wireFrame _ _)] at h2
  obtain ⟨t3, a3, h3⟩ := h2.take_frame hlenB
  obtain ⟨t4, a4, -⟩ := h3.read (out := .incomplete) (parseContent_short (by simp))
  exact ⟨t4, a1.append (a2.append (a3.append a4.single))⟩

end Sys2Proof.Machine
end

section
/-! PROOF. The frame token: what its commands answer with and without it, and which commands leave it alone
(spec/42_token.md R191 to R194, spec/60_exceptions.md R255). -/

namespace Sys2Proof.Machine

/-! ### The token's commands (R191, R192, R255) -/

/-- A token command without a valid token only raises the fault (R255). -/
theorem needToken_stale {s : State} (opcode : BitVec 4) (command : Result) (h : s.tokValid = false) :
    needToken opcode s command = .next (s.raiseFault .staleToken (opcode.zeroExtend 24)) :=
  if_neg (by simp [h])

/-- BODY with a valid token answers the sub-range of the body and writes nothing (R191). -/
theorem exec_body_of_tokValid {s : State} (hs : s.Healthy) (h : s.tokValid = true) :
    exec .body s = .next (s.respond (viewResponse (s.subrange 4 (4 + s.tokBodyLen.toNat)))) :=
  (preamble_healthy _ s _ hs).trans (needToken_valid _ _ h)

/-- Settles O47: behind the preamble, the token check runs the command's rule or raises the fault. -/
theorem bodyAnswersSubrange : Obligations.BodyAnswersSubrange := fun s hs =>
  ⟨exec_body_of_tokValid hs, fun h => (preamble_healthy _ s _ hs).trans (needToken_stale _ _ h)⟩

/-- Settles O48: behind the preamble, the token check runs the command's rule or raises the fault. -/
theorem convSpendsToken : Obligations.ConvSpendsToken := fun s hs =>
  ⟨fun h => (preamble_healthy _ s _ hs).trans (needToken_valid _ _ h),
    fun h => (preamble_healthy _ s _ hs).trans (needToken_stale _ _ h)⟩

/-- The body a valid token stands for lies in the content (R33, 3). -/
theorem State.Inv.body_fits {s : State} (h : s.Inv) (ht : s.tokValid = true) : 4 + s.tokBodyLen.toNat ≤ s.len.toNat := by
  have hframe := h.token_fits ht
  unfold frameSize at hframe
  omega

/-- Settles O46: the body lies in the content, so the cells of its sub-range hold its bytes. -/
theorem bodyNamesValidatedBody : Obligations.BodyNamesValidatedBody := by
  intro s content h hs ht hc
  refine ⟨_, _, rfl, exec_body_of_tokValid hs ht, ?_⟩
  have hread := h.readAll_subrange hc (Nat.le_add_right 4 _) (h.body_fits ht)
  rwa [List.drop_take, Nat.add_sub_cancel_left] at hread

/-! ### The commands that leave the token alone (R194) -/

/-- A next state has the token of `s`. -/
def KeepsToken (s : State) (result : Result) : Prop :=
  ∀ t, result = .next t → t.tokValid = s.tokValid ∧ t.tokBodyLen = s.tokBodyLen

namespace KeepsToken

variable {s : State}

theorem next {u : State} (hvalid : u.tokValid = s.tokValid) (hlen : u.tokBodyLen = s.tokBodyLen) :
    KeepsToken s (.next u) := by
  rintro _ ⟨⟩
  exact ⟨hvalid, hlen⟩

/-- Where the preamble does not run the command it writes the fault pair at most (R251, R257). -/
theorem of_preamble {top : Byte} {legal : Bool} {command : Result} (h : KeepsToken s command) :
    KeepsToken s (preamble top legal s command) := by
  obtain ⟨-, hp⟩ | ⟨-, -, hp⟩ | ⟨-, -, hp⟩ := preamble_cases top legal s command <;> rw [hp]
  · exact .next rfl rfl
  · exact h
  · exact .next rfl rfl

/-- A command found stale does not write the token either (R255). -/
theorem of_needToken {opcode : BitVec 4} {command : Result} (h : KeepsToken s command) :
    KeepsToken s (needToken opcode s command) := by
  obtain ⟨-, hn⟩ | ⟨-, hn⟩ := needToken_cases opcode s command <;> rw [hn]
  · exact h
  · exact .next rfl rfl

end KeepsToken

/-- RDB writes the fault pair or the draw count at most (R126). -/
theorem execRdb_keepsToken (i : Count) (s : State) : KeepsToken s (execRdb i s) := by
  refine .of_preamble ?_
  split
  · exact .next rfl rfl
  · split
    · split
      · exact .next rfl rfl
      · nofun
    · exact .next rfl rfl

/-- Settles O49: by the command; each of these answers, and writes the accumulator, the draw count or the fault pair
at most. -/
theorem otherCommandsKeepToken : Obligations.OtherCommandsKeepToken := by
  intro i s t hread hconv hfill hconsume h
  have keeps : KeepsToken s (exec i s) := by
    cases i with
    | read => exact absurd rfl hread
    | conv => exact absurd rfl hconv
    | fill payload => exact absurd rfl (hfill payload)
    | consume n => exact absurd rfl (hconsume n)
    | rdb index => exact execRdb_keepsToken index s
    | body => exact .of_preamble (.of_needToken (.next rfl rfl))
    | cap | len | full | data | crci | crcu | crcr | stat => exact .of_preamble (.next rfl rfl)
  exact keeps t h

end Sys2Proof.Machine
end

section
/-! PROOF. The other forms of the byte updates (spec/43_crc.md R213, R215, R223, R224). Updates and
forms are linear over XOR, so they agree everywhere if they agree on the words of one set bit. -/

namespace Sys2Proof.Machine

/-! ### Functions that are linear over XOR -/

/-- `f` takes the XOR of two words to the XOR of their values. -/
def XorLinear {w n : Nat} (f : BitVec w → BitVec n) : Prop := ∀ x y, f (x ^^^ y) = f x ^^^ f y

namespace XorLinear

variable {w n m : Nat} {f g : BitVec w → BitVec n}

theorem map_zero (hf : XorLinear f) : f 0#w = 0#n := by
  simpa using hf 0#w 0#w

theorem id : XorLinear fun x : BitVec w => x := fun _ _ => rfl

theorem shiftLeft (k : Nat) : XorLinear fun x : BitVec w => x <<< k := fun x y => BitVec.shiftLeft_xor_distrib x y k

theorem ushiftRight (k : Nat) : XorLinear fun x : BitVec w => x >>> k := fun x y => BitVec.ushiftRight_xor_distrib x y k

theorem setWidth (n : Nat) : XorLinear fun x : BitVec w => x.setWidth n := fun _ _ => BitVec.setWidth_xor

theorem comp {h : BitVec n → BitVec m} (hh : XorLinear h) (hf : XorLinear f) : XorLinear fun x => h (f x) :=
  fun x y => (congrArg h (hf x y)).trans (hh _ _)

theorem iterate {f : BitVec w → BitVec w} (hf : XorLinear f) (k : Nat) : XorLinear f^[k] := by
  induction k with
  | zero => exact id
  | succ k ih => exact ih.comp hf

theorem xor (hf : XorLinear f) (hg : XorLinear g) : XorLinear fun x => f x ^^^ g x := by
  intro x y
  simp only [hf x y, hg x y]
  ac_rfl

/-- A constant that a linear bit switches on and off. -/
theorem ite_zero {p : BitVec w → Bool} (hp : ∀ x y, p (x ^^^ y) = (p x ^^ p y)) (k : BitVec n) :
    XorLinear fun x => if p x then k else 0#n := by
  intro x y
  simp only [hp]
  cases p x <;> cases p y <;> simp

/-- A word with clear bits from `k` on is the XOR of words of one set bit each; these are taken off from the top. -/
theorem eq_of_bits_clear (hf : XorLinear f) (hg : XorLinear g) (h : ∀ j < w, f (.twoPow w j) = g (.twoPow w j))
    {k : Nat} (hk : k ≤ w) {x : BitVec w} (hx : ∀ i, k ≤ i → x.getLsbD i = false) : f x = g x := by
  induction k generalizing x with
  | zero =>
    obtain rfl : x = 0#w := BitVec.eq_of_getLsbD_eq fun i _ => by simp [hx i (Nat.zero_le i)]
    rw [hf.map_zero, hg.map_zero]
  | succ k ih =>
    cases hbit : x.getLsbD k with
    | false =>
      refine ih (by omega) fun i hi => ?_
      rcases Nat.eq_or_lt_of_le hi with rfl | hlt
      · exact hbit
      · exact hx i hlt
    | true =>
      have hrest : f (x ^^^ .twoPow w k) = g (x ^^^ .twoPow w k) := by
        refine ih (by omega) fun i hi => ?_
        rcases Nat.eq_or_lt_of_le hi with rfl | hlt
        · simp [hbit, show k < w by omega]
        · simp [hx i hlt, show k ≠ i by omega]
      rw [hf, hg, h k (by omega)] at hrest
      exact (BitVec.xor_left_inj _).1 hrest

/-- Linear functions that agree on the words of one set bit are equal. -/
theorem eq_of_twoPow (hf : XorLinear f) (hg : XorLinear g) (h : ∀ j < w, f (.twoPow w j) = g (.twoPow w j))
    (x : BitVec w) : f x = g x :=
  eq_of_bits_clear hf hg h le_rfl fun i hi => BitVec.getLsbD_of_ge x i hi

end XorLinear

/-! ### The updates and their forms are linear -/

theorem arcShift_eq (c : U16) : arcShift c = (c >>> 1) ^^^ (if c.getLsbD 0 then 0xA001#16 else 0#16) := by
  unfold arcShift
  split <;> simp

theorem ibmShift_eq (c : U16) : ibmShift c = (c <<< 1) ^^^ (if c.getLsbD 15 then 0x1021#16 else 0#16) := by
  unfold ibmShift
  split <;> simp

theorem arcShift_xorLinear : XorLinear arcShift := by
  rw [funext arcShift_eq]
  exact (XorLinear.ushiftRight 1).xor (.ite_zero (by simp) _)

theorem ibmShift_xorLinear : XorLinear ibmShift := by
  rw [funext ibmShift_eq]
  exact (XorLinear.shiftLeft 1).xor (.ite_zero (by simp) _)

theorem arcUpdate_zero (b : Byte) : arcUpdate 0#16 b = arcShift^[8] (b.zeroExtend 16) :=
  congrArg arcShift^[8] BitVec.zero_xor

theorem ibmUpdate_zero (b : Byte) : ibmUpdate 0#16 b = ibmShift^[8] (b.zeroExtend 16 <<< 8) :=
  congrArg ibmShift^[8] BitVec.zero_xor

theorem arcUpdate_zero_xorLinear : XorLinear (arcUpdate 0#16) := by
  rw [funext arcUpdate_zero]
  exact (arcShift_xorLinear.iterate 8).comp (.setWidth 16)

theorem ibmUpdate_zero_xorLinear : XorLinear (ibmUpdate 0#16) := by
  rw [funext ibmUpdate_zero]
  exact (ibmShift_xorLinear.iterate 8).comp ((XorLinear.shiftLeft 8).comp (.setWidth 16))

theorem xorColumns_xorLinear (j : Nat) (ks : List U16) : XorLinear fun x => xorColumns x j ks := by
  induction ks generalizing j with
  | nil => exact fun _ _ => BitVec.xor_self.symm
  | cons k ks ih => exact (XorLinear.ite_zero (by simp) k).xor (ih (j + 1))

theorem parity_xor (x y : Byte) : parity (x ^^^ y) = (parity x ^^ parity y) := by
  have : Std.Commutative xor := ⟨Bool.xor_comm⟩
  simp only [parity, BitVec.getLsbD_xor]
  ac_rfl

/-! ### One byte from accumulator 0 -/

theorem xorColumns_arcColumns (x : Byte) : xorColumns x 0 arcColumns = arcUpdate 0#16 x :=
  (xorColumns_xorLinear 0 arcColumns).eq_of_twoPow arcUpdate_zero_xorLinear (by decide) x

theorem xorColumns_ibmColumns (x : Byte) : xorColumns x 0 ibmColumns = ibmUpdate 0#16 x :=
  (xorColumns_xorLinear 0 ibmColumns).eq_of_twoPow ibmUpdate_zero_xorLinear (by decide) x

/-- The parity form's part of the byte (R213). -/
theorem arcParityForm_byte (x : Byte) :
    (x.zeroExtend 16 ^^^ x.zeroExtend 16 <<< 1) <<< 6 ^^^ (if parity x then 0xC001#16 else 0#16) = arcUpdate 0#16 x :=
  XorLinear.eq_of_twoPow
    (((XorLinear.shiftLeft 6).comp ((XorLinear.setWidth 16).xor ((XorLinear.shiftLeft 1).comp (.setWidth 16)))).xor
      (.ite_zero parity_xor _))
    arcUpdate_zero_xorLinear (by decide) x

/-- The shift form's part of the byte: the byte with its high half added to its low half, at three places (R215). -/
theorem ibmShiftForm_byte (x : Byte) :
    (x ^^^ x >>> 4).zeroExtend 16 <<< 12 ^^^ ((x ^^^ x >>> 4).zeroExtend 16 <<< 5 ^^^ (x ^^^ x >>> 4).zeroExtend 16) =
      ibmUpdate 0#16 x :=
  have folded : XorLinear fun x : Byte => (x ^^^ x >>> 4).zeroExtend 16 :=
    (XorLinear.setWidth 16).comp (XorLinear.id.xor (.ushiftRight 4))
  XorLinear.eq_of_twoPow (((XorLinear.shiftLeft 12).comp folded).xor (((XorLinear.shiftLeft 5).comp folded).xor folded))
    ibmUpdate_zero_xorLinear (by decide) x

/-! ### The rest of the accumulator only moves -/

/-- Eight shifts of the reflected form move the high byte down and spend the low byte. -/
theorem arcShift_iterate_eight (d : U16) : arcShift^[8] d = (d >>> 8) ^^^ arcUpdate 0#16 (d.setWidth 8) :=
  (arcShift_xorLinear.iterate 8).eq_of_twoPow
    ((XorLinear.ushiftRight 8).xor (arcUpdate_zero_xorLinear.comp (.setWidth 8))) (by decide) d

/-- Eight shifts of the non-reflected form move the low byte up and spend the high byte. -/
theorem ibmShift_iterate_eight (d : U16) : ibmShift^[8] d = (d <<< 8) ^^^ ibmUpdate 0#16 ((d >>> 8).setWidth 8) :=
  (ibmShift_xorLinear.iterate 8).eq_of_twoPow
    ((XorLinear.shiftLeft 8).xor (ibmUpdate_zero_xorLinear.comp ((XorLinear.setWidth 8).comp (.ushiftRight 8))))
    (by decide) d

/-- The update acts on the low byte alone, to which the new byte is added; the high byte moves down (R212). -/
theorem arcUpdate_eq (acc : U16) (b : Byte) :
    arcUpdate acc b = (acc >>> 8) ^^^ arcUpdate 0#16 ((acc ^^^ b.zeroExtend 16).setWidth 8) := by
  have hbyte : (b.zeroExtend 16 : U16) >>> 8 = 0#16 := by
    apply BitVec.eq_of_getLsbD_eq
    simp
  rw [arcUpdate, arcShift_iterate_eight, BitVec.ushiftRight_xor_distrib, hbyte, BitVec.xor_zero]

/-- The update acts on the high byte alone, to which the new byte is added; the low byte moves up (R214). -/
theorem ibmUpdate_eq (acc : U16) (b : Byte) :
    ibmUpdate acc b = (acc <<< 8) ^^^ ibmUpdate 0#16 (((acc >>> 8) ^^^ b.zeroExtend 16).setWidth 8) := by
  have hup : (b.zeroExtend 16 : U16) <<< 8 <<< 8 = 0#16 := by
    rw [← BitVec.shiftLeft_add, BitVec.shiftLeft_eq_zero le_rfl]
  have hdown : (b.zeroExtend 16 : U16) <<< 8 >>> 8 = b.zeroExtend 16 := by
    apply BitVec.eq_of_getLsbD_eq
    intro i hi
    rcases Nat.lt_or_ge i 8 with hlt | hge
    · simp [hi, show 8 + i < 16 by omega]
    · simp [BitVec.getLsbD_of_ge b i hge]
  rw [ibmUpdate, ibmShift_iterate_eight, BitVec.shiftLeft_xor_distrib, BitVec.ushiftRight_xor_distrib, hup, hdown,
    BitVec.xor_zero]

/-- Settles O54: each form moves the high byte down and adds a linear function of the low byte, the update's own. -/
theorem arcParallelFormsAgree : Obligations.ArcParallelFormsAgree := by
  refine ⟨fun acc b => ⟨?_, ?_⟩, by decide⟩
  · rw [arcNetwork, xorColumns_arcColumns, arcUpdate_eq acc b]
  · rw [arcParityForm, BitVec.xor_assoc, arcParityForm_byte, arcUpdate_eq acc b]

/-- Settles O55: each form moves the low byte up and adds a linear function of the high byte, the update's own. -/
theorem ibmParallelFormsAgree : Obligations.IbmParallelFormsAgree := by
  refine ⟨fun acc b => ⟨?_, ?_⟩, by decide⟩
  · rw [ibmNetwork, xorColumns_ibmColumns, ibmUpdate_eq acc b]
  · rw [ibmShiftForm, BitVec.xor_assoc, BitVec.xor_assoc, ibmShiftForm_byte, ibmUpdate_eq acc b]

/-! ### The byte tables -/

/-- The 256 listed words, each compared with the update (R223). -/
theorem arcTable_eq : arcTable = (List.range 256).map fun n => arcUpdate 0#16 (BitVec.ofNat 8 n) := by
  decide +kernel

/-- The 256 listed words, each compared with the update (R224). -/
theorem ibmTable_eq : ibmTable = (List.range 256).map fun n => ibmUpdate 0#16 (BitVec.ofNat 8 n) := by
  decide +kernel

/-- A list of a function's values on all bytes in order is looked up by the byte. -/
theorem getElem?_map_range_byte (f : Byte → U16) (x : Byte) :
    ((List.range 256).map fun n => f (BitVec.ofNat 8 n))[x.toNat]? = some (f x) := by
  simp [List.getElem?_range x.isLt]

theorem arcTable_getElem? (x : Byte) : arcTable[x.toNat]? = some (arcUpdate 0#16 x) := by
  rw [arcTable_eq, getElem?_map_range_byte]

theorem ibmTable_getElem? (x : Byte) : ibmTable[x.toNat]? = some (ibmUpdate 0#16 x) := by
  rw [ibmTable_eq, getElem?_map_range_byte]

/-- Settles O56: the tables list the update of every byte from accumulator 0, and the rest of the accumulator only
moves. -/
theorem byteTablesAgree : Obligations.ByteTablesAgree := by
  refine ⟨fun x => ⟨arcTable_getElem? x, ibmTable_getElem? x⟩, fun acc b => ⟨?_, ?_⟩⟩
  · rw [arcTableUpdate, List.getD_eq_getElem?_getD, arcTable_getElem?, Option.getD_some, arcUpdate_eq acc b]
  · rw [ibmTableUpdate, List.getD_eq_getElem?_getD, ibmTable_getElem?, Option.getD_some, ibmUpdate_eq acc b]

end Sys2Proof.Machine
end

section
/-! PROOF. The CRC unit's commands: what each writes and answers, and that a chunked computation is the whole one
(spec/43_crc.md R217, R219 to R221; spec/45_system.md R242). -/

namespace Sys2Proof.Machine

/-! ### A healthy block with the CRC unit -/

/-- With the CRC unit the commands of opcodes 0xB, 0xC and 0xD are legal (R98 case 2, R242). -/
theorem preamble_of_crcUnit_present {s : State} (hs : s.Healthy) (hcrc : s.cfg.crcUnit = .present) (top : Byte)
    (command : Result) : preamble top s.crcPresent s command = command := by
  rw [show s.crcPresent = true from decide_eq_true hcrc, preamble_healthy top s command hs]

theorem exec_crci_of_present {s : State} (hs : s.Healthy) (hcrc : s.cfg.crcUnit = .present) :
    exec .crci s = .next ((s.setCrcAcc (crcInit s.cfg.crcVariant)).respond (okResponse 0#24)) :=
  preamble_of_crcUnit_present hs hcrc _ _

theorem exec_crcu_of_present {s : State} (hs : s.Healthy) (hcrc : s.cfg.crcUnit = .present) (payload : List Byte) :
    exec (.crcu payload) s =
      .next ((s.setCrcAcc (crcFold s.cfg.crcVariant s.crcAcc payload)).respond (okResponse 0#24)) :=
  preamble_of_crcUnit_present hs hcrc _ _

theorem exec_crcr_of_present {s : State} (hs : s.Healthy) (hcrc : s.cfg.crcUnit = .present) :
    exec .crcr s = .next (s.respond (okResponse (s.crcAcc.zeroExtend 24))) :=
  preamble_of_crcUnit_present hs hcrc _ _

/-- `update` by variant (R216). -/
theorem crcUpdate_eq (v : CrcVariant) : crcUpdate v = if v = .arc then arcUpdate else ibmUpdate := by
  cases v <;> rfl

/-- Settles O50: the preamble runs the command with the unit, and raises the fault without it. -/
theorem crciLoadsInit : Obligations.CrciLoadsInit := by
  refine fun s hs => ⟨fun hcrc => ?_, fun habs => exec_of_crcUnit_absent hs habs (by decide)⟩
  rw [exec_crci_of_present hs hcrc, crcInit_eq]
  rfl

/-- Settles O51: the preamble runs the command with the unit, and raises the fault without it. -/
theorem crcuFoldsPayload : Obligations.CrcuFoldsPayload := by
  refine fun s payload hs => ⟨fun hcrc => ?_, fun habs => ?_⟩
  · rw [exec_crcu_of_present hs hcrc, crcFold, crcUpdate_eq]
    rfl
  · have htop : (Instr.crcu payload).topByte = 0xC0#8 := (by decide : 0xC#4 ++ 0#4 = 0xC0#8)
    rw [exec_of_crcUnit_absent hs habs (by simp [Instr.opcode]), htop]
    rfl

/-- Settles O52: the preamble runs the command with the unit, and raises the fault without it. -/
theorem crcrAnswersAccumulator : Obligations.CrcrAnswersAccumulator := fun _ hs =>
  ⟨exec_crcr_of_present hs, fun habs => exec_of_crcUnit_absent hs habs (by decide)⟩

/-! ### Split input (R217) -/

theorem crcFold_append (v : CrcVariant) (c : U16) (x y : List Byte) :
    crcFold v c (x ++ y) = crcFold v (crcFold v c x) y := List.foldl_append

/-- Settles O53: the second CRCU folds on from where the first one stopped. -/
theorem crcSplitInvariance : Obligations.CrcSplitInvariance := by
  refine ⟨fun v x y => crcFold_append v _ x y, fun s x y hs hcrc => ?_⟩
  have hx := exec_crcu_of_present hs hcrc x
  have hy := exec_crcu_of_present
    (s := (s.setCrcAcc (crcFold s.cfg.crcVariant s.crcAcc x)).respond (okResponse 0#24)) hs hcrc y
  obtain ⟨hall, -⟩ := Answers.cons ⟨hx, rfl⟩ (Answers.single ⟨hy, rfl⟩)
  refine ⟨_, _, hall, exec_crcu_of_present hs hcrc (x ++ y), ?_⟩
  rw [crcFold_append]
  rfl

end Sys2Proof.Machine
end

section
/-! PROOF. The status word bit by bit, and the STAT command that answers it (spec/10_state.md R29,
spec/45_system.md R240). -/

namespace Sys2Proof.Machine

/-- Appending a bit puts it in front of the bits that stood there, listed from bit 0 up. -/
theorem getLsbD_append_ofBool {w : Nat} {x : BitVec w} {bits : List Bool} (hx : ∀ i, x.getLsbD i = bits.getD i false)
    (b : Bool) (i : Nat) : (x ++ BitVec.ofBool b).getLsbD i = (b :: bits).getD i false := by
  cases i with
  | zero => exact BitVec.getLsbD_concat_zero
  | succ i => exact BitVec.getLsbD_concat_succ.trans (hx i)

/-- The status word by bit position: its six fields from bit 0 up, then zeros (R29). -/
theorem State.status_getLsbD (s : State) : ∀ i, s.status.getLsbD i =
    [s.isEmpty, s.isFull, s.tokValid, decide (s.cfg.layout = .contiguous), decide (s.cfg.crcVariant = .ibm3740),
      s.crcPresent].getD i false := by
  have hreserved : ∀ i, (0#18).getLsbD i = ([] : List Bool).getD i false := fun _ => BitVec.getLsbD_zero
  have hcrcUnit := getLsbD_append_ofBool hreserved s.crcPresent
  have hcrcVariant := getLsbD_append_ofBool hcrcUnit (decide (s.cfg.crcVariant = .ibm3740))
  have hlayout := getLsbD_append_ofBool hcrcVariant (decide (s.cfg.layout = .contiguous))
  have htokValid := getLsbD_append_ofBool hlayout s.tokValid
  have hfull := getLsbD_append_ofBool htokValid s.isFull
  exact getLsbD_append_ofBool hfull s.isEmpty

/-- Settles O57: the preamble runs the command, whose answer has the status word's six fields and no bit past them. -/
theorem statAnswersStatus : Obligations.StatAnswersStatus := by
  intro s hs
  have hbit := s.status_getLsbD
  refine ⟨s.status, preamble_healthy _ s _ hs, hbit 0, hbit 1, hbit 2, hbit 3, hbit 4, hbit 5, fun i hi => ?_⟩
  rw [hbit, List.getD_eq_default _ _ hi]

end Sys2Proof.Machine
end

section
/-! PROOF. The fault state: what raises a fault, how little a fault changes, and how the block stays faulted until the
reset input (spec/60_exceptions.md R251, R254, R256, R257, R260, R268). -/

namespace Sys2Proof.Machine

/-! ### The faulted block (R257, R260) -/

/-- Every command stands behind the preamble, so on a faulted block it only answers. -/
theorem exec_of_faulted (i : Instr) {s : State} (hs : s.faultCause ≠ .none) : exec i s = .next s.answerFaulted := by
  cases i <;> exact preamble_faulted _ _ s _ hs

/-- Settles O11: an illegal word and a command alike stand behind the preamble. -/
theorem faultedBlockAnswersFaulted : Obligations.FaultedBlockAnswersFaulted := by
  intro s t rest hs hin hlen
  have hd : (s.dequeue rest).faultCause ≠ .none := hs
  obtain ⟨hne, -⟩ | ⟨-, -, h⟩ | ⟨-, -, i, -, h⟩ := decode_cases t
  · exact absurd hlen hne
  · rw [step_of_decode_illegal hin h]
    exact preamble_faulted _ _ _ _ hd
  · rw [stepRunsDecodedCommand s t rest i hin h]
    exact exec_of_faulted i hd

/-- Settles O12: of the effects of a transaction only a faulted block's answer starts from a fault. -/
theorem onlyResetLeavesFaultedState : Obligations.OnlyResetLeavesFaultedState := by
  intro s t hs hreset hstep
  obtain ⟨-, rfl⟩ | ⟨rest, hin, -⟩ | ⟨x, rest, -, heff⟩ := step_cases hstep
  · exact ⟨rfl, rfl⟩
  · exact absurd (congrArg List.head? hin) hreset
  · cases heff with
    | stayFaulted _ => exact ⟨rfl, rfl⟩
    | fault hhealthy => exact absurd hhealthy hs
    | answer hhealthy => exact absurd hhealthy hs

/-! ### A fault is precise (R251) -/

/-- No write of a command that answers without a fault touches the cause. -/
theorem Writes.faultCause_eq {s u : State} (h : Writes s u) : u.faultCause = s.faultCause := by
  cases h with
  | classify out _ => cases out <;> rfl
  | evict n _ => exact State.evict_faultCause s n
  | nothing | append | draw | crc | spend => rfl

/-- Settles O17: of the effects of a command on a healthy block only the raised fault leaves a cause. -/
theorem faultIsPrecise : Obligations.FaultIsPrecise := by
  intro i s t hs hexec hfault
  cases exec_effect hexec with
  | stayFaulted hfaulted => exact absurd hs hfaulted
  | fault => rfl
  | answer _ hu => exact absurd (hu.faultCause_eq.trans hs) hfault

/-! ### The idle block (R268) -/

/-- Settles O8: the port yields nothing, on which a step holds the state. -/
theorem idleBlockHoldsState : Obligations.IdleBlockHoldsState := by
  intro s hin
  simp only [step, takeInput, hin]

/-! ### The range checks (R254, R256) -/

/-- Settles O24: behind the preamble CONSUME compares with LEN first. -/
theorem consumeOverrunFaults : Obligations.ConsumeOverrunFaults := fun s _ hs hn =>
  (preamble_healthy _ s _ hs).trans (if_pos hn)

/-- Settles O30: behind the preamble RDB compares with N first. -/
theorem rdbIndexRangeFaults : Obligations.RdbIndexRangeFaults := fun s _ hs hN =>
  (preamble_healthy _ s _ hs).trans (if_pos hN)

end Sys2Proof.Machine
end

section
/-! PROOF. The reset input, the run it starts, and how that run ends (spec/70_reset_and_hazards.md R280, R281, R292;
spec/60_exceptions.md R251, R257). -/

namespace Sys2Proof.Machine

/-! ### FAULT_CAUSE and the FAULTED responses of the run (R292) -/

/-- Whether a fault is shown depends on the cause and the responses alone. -/
theorem State.FaultShown.of_eq {s u : State} (h : s.FaultShown) (hcause : u.faultCause = s.faultCause)
    (hout : u.outbox = s.outbox) : u.FaultShown := by
  unfold State.FaultShown State.runFaulted
  rw [hcause, hout]
  exact h

/-- A command that raises no fault writes neither the cause nor the responses; a fault, raised or standing, is both
recorded and answered. -/
theorem Effect.keeps_faultShown {s t : State} (he : Effect s t) (h : s.FaultShown) : t.FaultShown := by
  cases he with
  | stayFaulted hs => exact s.faultShown_answerFaulted hs
  | fault _ c info hc => exact s.faultShown_raiseFault c info hc
  | @answer _ u hu r hr =>
    obtain ⟨-, hout⟩ := hu.ports_eq
    exact (u.faultShown_respond r hr).2 (h.of_eq hu.faultCause_eq hout)

/-- Settles O59: by the cases of a step, the reset input starting a run that shows no fault. -/
theorem stepKeepsFaultShown : Obligations.StepKeepsFaultShown := by
  intro s t h hstep
  obtain ⟨-, rfl⟩ | ⟨rest, -, rfl⟩ | ⟨x, rest, -, heff⟩ := step_cases hstep
  · exact h
  · exact State.faultShown_resetInput _
  · exact heff.keeps_faultShown (h.of_eq rfl rfl)

/-! ### The reset input (R280, R281) -/

theorem step_of_reset {s : State} {rest : List HostInput} (hin : s.inbox = .reset :: rest) :
    step s = .next (s.dequeue rest).resetInput := by
  simp only [step, takeInput, hin]

/-- Settles O9: the reset state's registers, with the responses of the run it closes kept behind those before. -/
theorem resetInputResets : Obligations.ResetInputResets := by
  intro s rest hin
  refine ⟨_, step_of_reset hin, rfl, rfl, rfl, rfl, rfl, rfl, fun _ => crcInit_eq s.cfg.crcVariant, rfl, rfl, ?_⟩
  simp

/-! ### Many steps (R64) -/

/-- What every step keeps, any number of steps keeps. -/
theorem steps_keep {P : State → Prop} (hP : ∀ s t, P s → step s = .next t → P t) :
    ∀ {k : Nat} {s t : State}, P s → steps k s = .next t → P t
  | 0, _, _, hs, h => by cases h; exact hs
  | k + 1, s, t, hs, h => by
    unfold steps at h
    split at h
    · next u hstep => exact steps_keep hP (hP s u hs hstep) h
    · cases h
    · cases h

/-- From a state that satisfies the invariant, presentable transactions are answered one a step: after `k` steps the
first `k` are taken and the first `k` responses given. -/
theorem steps_answer_run {rest : List HostInput} : ∀ {run : List Transaction} {s : State}, s.Inv →
    s.inbox = run.map .transaction ++ rest → (∀ t ∈ run, t.payload.length = payloadLength t.cmd) →
    ∃ rs : List Response, rs.length = run.length ∧ ∀ k ≤ run.length, ∃ w, steps k s = .next w ∧
      w.inbox = (run.drop k).map .transaction ++ rest ∧ w.outbox = s.outbox ++ rs.take k
  | [], s, _, hin, _ => ⟨[], rfl, fun k hk => by
      obtain rfl := Nat.le_zero.1 hk
      exact ⟨s, rfl, hin, by simp⟩⟩
  | x :: run, s, hinv, hin, hlen => by
    obtain ⟨hx, hrun⟩ := List.forall_mem_cons.1 hlen
    obtain ⟨t, r, hstep, htin, htout, -⟩ := transactionAnsweredOnce s x _ hinv hin hx
    obtain ⟨rs, hrs, hw⟩ := steps_answer_run (stepKeepsInvariant s t hinv hstep) htin hrun
    refine ⟨r :: rs, congrArg (· + 1) hrs, fun k hk => ?_⟩
    cases k with
    | zero => exact ⟨s, rfl, hin, by simp⟩
    | succ k =>
      obtain ⟨w, hsteps, hwin, hwout⟩ := hw k (Nat.le_of_succ_le_succ hk)
      exact ⟨w, (steps_succ k s t hstep).trans hsteps, hwin, by simp [hwout, htout]⟩

/-! ### How a run ends (R292) -/

theorem State.runFaulted_iff (s : State) : s.runFaulted = true ↔ ∃ r ∈ s.outbox, r.rcode = .faulted := by
  simp [State.runFaulted]

theorem State.endedFaulted_iff {s : State} (h : s.runEnded = true) :
    s.endedFaulted = true ↔ ∃ r ∈ s.outbox, r.rcode = .faulted := by
  rw [← s.runFaulted_iff, State.endedFaulted, h, Bool.true_and]

theorem State.endedNormally_iff {s : State} (h : s.runEnded = true) :
    s.endedNormally = true ↔ ∀ r ∈ s.outbox, r.rcode ≠ .faulted := by
  simp [State.endedNormally, State.runFaulted, h]

/-- Settles O60: the state right after the reset satisfies the invariant and shows no fault; from there every
transaction is answered once, and every step keeps the faulted responses and the cause together. -/
theorem runEndsAnswered : Obligations.RunEndsAnswered := by
  intro s run rest hin hrest hlen
  have hreset (k : Nat) := steps_succ k s _ (step_of_reset hin)
  obtain ⟨rs, hrs, hw⟩ :=
    steps_answer_run (State.inv_resetInput (s.dequeue (run.map .transaction ++ rest))) rfl hlen
  obtain ⟨u, hsteps, huin, huout⟩ := hw run.length le_rfl
  replace huin : u.inbox = rest := by simpa using huin
  replace huout : u.outbox = rs := by simpa [← hrs] using huout
  have hended : u.runEnded = true := u.runEnded_iff.2 (huin ▸ hrest)
  have hshown : u.FaultShown := steps_keep stepKeepsFaultShown (State.faultShown_resetInput _) hsteps
  refine ⟨u, (hreset _).trans hsteps, huin, hended, by rw [huout, hrs], fun k hk => ?_,
    State.endedNormally_iff hended, State.endedFaulted_iff hended, fun hf => ?_⟩
  · obtain ⟨w, hk, -, hwout⟩ := hw k hk
    exact ⟨w, (hreset _).trans hk, by simpa [huout] using hwout⟩
  · exact hshown.2 (u.runFaulted_iff.2 ((State.endedFaulted_iff hended).1 hf))

end Sys2Proof.Machine
end
